-- ==== Sys2Proof/Word.lean ====
section
/-! DEFINITION. The word types of the block (spec/10_state.md R21, spec/00_scope.md R11, R13). -/

namespace Sys2Proof

/-- One byte of a window (20_memory.md R63). -/
abbrev Byte := BitVec 8

/-- One 64-bit register or command word (10_state.md R21). -/
abbrev Word := BitVec 64

/-- One IEEE 754 binary64 value, held as its 64-bit encoding (00_scope.md R11; 30_encoding.md R91: sign [63],
exponent [62:52], fraction [51:0]), so that `f64(w)` and `bits64(v)` of R13 are both the identity. -/
abbrev F64 := BitVec 64

end Sys2Proof
end

