-- ==== Sys2Proof/Syntax.lean ====
section
/-! DEFINITION. The commands of the block: one constructor per row of spec/opcode_table.json (30_encoding.md R92). -/

namespace Sys2Proof

/-- The six commands. No command carries an operand field, an immediate or a register number (30_encoding.md R93). -/
inductive Instr where
  /-- 0x00: no operation (44_control.md R242). -/
  | nop
  /-- 0x01: SRC image to FRAME (42_ditherer.md R191). -/
  | convert
  /-- 0x02: `gammaLinear` of each channel of operand A (40_colormath.md R119). -/
  | gamma
  /-- 0x03: operand A to CIE-Lab (40_colormath.md R120). -/
  | lab
  /-- 0x04: CIEDE2000 distance of operands A and B (41_distance.md R153). -/
  | de2000
  /-- 0x05: nearest palette index of operand A (41_distance.md R154). -/
  | nearest
deriving DecidableEq, Repr

end Sys2Proof
end

