-- ==== Sys2Proof/Decode.lean ====
section
/-! DEFINITION. Decoding and encoding of command words (30_encoding.md R90 to R96) and the little-endian byte order
(20_memory.md R63). -/

namespace Sys2Proof

/-- Byte `k` of a word: bits [8k+7:8k] (20_memory.md R63). -/
def byteOf (v : Word) (k : Nat) : Byte := v.extractLsb' (8 * k) 8

/-- The `n` low bytes of a word, the byte of the lowest address first (20_memory.md R63). -/
def bytesOf (v : Word) (n : Nat) : List Byte := (List.range n).map (byteOf v)

/-- The word whose bytes, lowest address first, are the given ones, zero-extended (20_memory.md R63). -/
def wordOfBytes : List Byte → Word
  | [] => 0
  | b :: rest => (wordOfBytes rest <<< 8) ||| b.setWidth 64

/-- Why a command word is illegal (30_encoding.md R94). -/
inductive Illegal where
  /-- `rsv` ≠ 0, whatever the opcode is. -/
  | reservedBits
  /-- `op` in 0x06..0xFF. -/
  | opcode
  /-- Fewer than the eight bytes of a command word (30_encoding.md R90). -/
  | short
deriving DecidableEq, Repr

/-- The field `op` = [7:0] of a command word (30_encoding.md R90). -/
def opField (w : Word) : BitVec 8 := w.extractLsb' 0 8

/-- The field `rsv` = [63:8] of a command word (30_encoding.md R90). -/
def rsvField (w : Word) : BitVec 56 := w.extractLsb' 8 56

/-- One row of the opcode map: the opcode and the command it selects (30_encoding.md R92). -/
structure OpcodeRow where
  /-- The value of `op`. -/
  op : BitVec 8
  /-- The command. -/
  instr : Instr
deriving DecidableEq, Repr

/-- The opcode map of 30_encoding.md R92. -/
def opcodeMap : List OpcodeRow :=
  [⟨0x00, .nop⟩, ⟨0x01, .convert⟩, ⟨0x02, .gamma⟩, ⟨0x03, .lab⟩, ⟨0x04, .de2000⟩, ⟨0x05, .nearest⟩]

/-- The command a row of the map gives for an opcode, if one does. -/
def lookupOpcode (op : BitVec 8) : List OpcodeRow → Option Instr
  | [] => none
  | row :: rest => if row.op = op then some row.instr else lookupOpcode op rest

/-- Decoding is total: every 64-bit word is exactly one of the six commands or illegal (30_encoding.md R94, R96). -/
def decode (w : Word) : Except Illegal Instr :=
  if rsvField w ≠ 0 then .error .reservedBits
  else
    match lookupOpcode (opField w) opcodeMap with
    | some i => .ok i
    | none => .error .opcode

/-- Decoding of a command word as bytes, lowest address first, with the bytes after it (30_encoding.md R90: always
64 bits). -/
def decodeBytes : List Byte → Except Illegal (Instr × List Byte)
  | b0 :: b1 :: b2 :: b3 :: b4 :: b5 :: b6 :: b7 :: rest =>
    match decode (wordOfBytes [b0, b1, b2, b3, b4, b5, b6, b7]) with
    | .ok i => .ok (i, rest)
    | .error e => .error e
  | _ => .error .short

/-- The opcode of a command (30_encoding.md R92). -/
def opcodeOf : Instr → BitVec 8
  | .nop => 0x00
  | .convert => 0x01
  | .gamma => 0x02
  | .lab => 0x03
  | .de2000 => 0x04
  | .nearest => 0x05

/-- The command word of a command: `rsv` = 0 above its opcode (30_encoding.md R90, R92). -/
def encode (i : Instr) : Word := (0 : BitVec 56) ++ opcodeOf i

/-- The command word as the bytes of the eight-byte bus write, lowest address first (20_memory.md R63). -/
def encodeBytes (i : Instr) : List Byte := bytesOf (encode i) 8

/-- The command read from an instruction of `nbits` bits whose bits are `w`: laid out as eight little-endian bytes and
given to the byte decoder; a `w` that is no 64-bit word, or a width above 64, is no command word (30_encoding.md R90). -/
def decodeTableWord (nbits w : Nat) : Option Instr :=
  if nbits ≤ 64 ∧ w < 2 ^ 64 then
    match decodeBytes (bytesOf (BitVec.ofNat 64 w) 8) with
    | .ok (i, _) => some i
    | .error _ => none
  else none

end Sys2Proof
end

