-- ==== Sys2Proof/Config.lean ====
section
/-! DEFINITION. The fixed constants of the format (00_scope.md R7), the orientation flag, and the free values: what the
spec leaves open (00_scope.md R8, spec/93_implementation_defined.md Part 1). A free value is an opaque constant with no
body: nothing can be proved of it but what its type says. -/

namespace Sys2Proof

/-- `W`: pixels per row (00_scope.md R7). -/
abbrev Config.W : Nat := 600

/-- `H`: rows (00_scope.md R7). -/
abbrev Config.H : Nat := 448

/-- `W*H`: the pixel steps of one scan (42_ditherer.md R184). Not an abbreviation, so that nothing unrolls a loop of
this length by accident. -/
def Config.numPixels : Nat := 268800

/-- `NPAL`: palette entries, indices 0..6 (00_scope.md R7). -/
abbrev Config.NPAL : Nat := 7

/-- `IDX_BITS`: bits per packed palette index (00_scope.md R7). -/
abbrev Config.IDX_BITS : Nat := 4

/-- `HDR_LEN`: header bytes (00_scope.md R7). -/
abbrev Config.HDR_LEN : Nat := 64

/-- `BODY_LEN` = W*H/2 (00_scope.md R7). -/
abbrev Config.BODY_LEN : Nat := 134400

/-- `FRAME_LEN` = HDR_LEN + BODY_LEN (00_scope.md R7). -/
abbrev Config.FRAME_LEN : Nat := 134464

/-- `MAGIC`, stored little-endian (00_scope.md R7). -/
abbrev Config.MAGIC : BitVec 32 := 0xFAFA1A1A

/-- `TS_LEN`: timestamp bytes (00_scope.md R7). -/
abbrev Config.TS_LEN : Nat := 8

/-- `SRC_LEN` = W*H*4: RGBA source bytes (00_scope.md R7). -/
abbrev Config.SRC_LEN : Nat := 1075200

/-- `REG_LEN`: the bytes the register file is given, offsets 0x000 to 0x11F; reserved offsets follow (20_memory.md R62). -/
abbrev Config.REG_LEN : Nat := 0x120

/-- First offset of the SRC window (20_memory.md R62). -/
abbrev Config.SRC_BASE : Nat := 0x100000

/-- First offset of the FRAME window (20_memory.md R62). -/
abbrev Config.FRAME_BASE : Nat := 0x300000

/-- Offsets are 22 bits wide: the first offset outside the block (20_memory.md R61). -/
abbrev Config.BLOCK_LEN : Nat := 0x400000

/-- `ROT180`, fixed true for this hardware (00_scope.md R8). -/
def Config.rot180 : Bool := true

/-- `BASE`: the host bus address of the block, OPEN (00_scope.md R8, log 12). FREE VALUE. -/
opaque Config.base : Nat

/-- A parameter that the spec leaves open but for the constraints its type states: the F_* functions (00_scope.md R12)
and PALETTE (10_state.md R32). The witness that the constraints can be met at all is the `Inhabited` argument; nothing
says that this parameter is that witness (logs 4 and 5). FREE VALUE. -/
opaque Config.constrained (α : Type) [Inhabited α] : α

/-- `LAT` - 1 of the command accepted when the counter of free values stands at `n`: LAT is OPEN, finite and at least 1
(00_scope.md R8, 44_control.md R248, log 8). FREE VALUE. -/
opaque Config.latencyMinusOne : Nat → Nat

/-- How many turns the host has before the engine's next one while a command runs, drawn when the counter of free values stands
at `n`: any finite number, so that no command completes within a given number of host transactions and every one completes
(70_reset_and_hazards.md R296, 44_control.md R248, log 9). FREE VALUE. -/
opaque Config.hostTurns : Nat → Nat

/-- What a host read of RES0..RES2 or FRAME returns while BUSY = 1, "a draw under no law" (70_reset_and_hazards.md R294,
log 7), when the counter of free values stands at `n`. FREE VALUE. -/
opaque Config.freeRead : Nat → Word

/-- Sign and payload of the NaN that a binary64 operation makes; 00_scope.md R11 states no bits for it (log 11).
FREE VALUE. -/
opaque Config.nanBits : Word

/-- `LAT` of the command accepted at counter `n`, at least 1 by its form (44_control.md R248). -/
def Config.latency (n : Nat) : Nat := Config.latencyMinusOne n + 1

end Sys2Proof
end

