-- ==== Sys2Proof/Machine/Float.lean ====
section
/-! DEFINITION. IEEE 754 binary64 arithmetic (00_scope.md R11): every operation computes its exact result and rounds it
once, to nearest, ties to even. Nothing is fused. -/

namespace Sys2Proof.Machine

/-- The sign bit [63] (30_encoding.md R91). -/
def fsign (v : F64) : Bool := v.getLsbD 63

/-- The exponent field [62:52] (30_encoding.md R91). -/
def fexpField (v : F64) : Nat := v.toNat / 2 ^ 52 % 2 ^ 11

/-- The fraction field [51:0] (30_encoding.md R91). -/
def ffrac (v : F64) : Nat := v.toNat % 2 ^ 52

/-- A NaN: exponent all ones, fraction not zero. -/
def fisNaN (v : F64) : Bool := fexpField v == 2047 && ffrac v != 0

/-- An infinity: exponent all ones, fraction zero. -/
def fisInf (v : F64) : Bool := fexpField v == 2047 && ffrac v == 0

/-- Neither a NaN nor an infinity. -/
def fisFinite (v : F64) : Bool := fexpField v != 2047

/-- A zero of either sign. -/
def fisZero (v : F64) : Bool := fexpField v == 0 && ffrac v == 0

/-- The integer significand of a finite value: its magnitude is `fmant v * 2 ^ fscale v`. -/
def fmant (v : F64) : Nat := if fexpField v = 0 then ffrac v else 2 ^ 52 + ffrac v

/-- The power of two of a finite value's significand. -/
def fscale (v : F64) : Int := (if fexpField v = 0 then 1 else (fexpField v : Int)) - 1075

/-- The signed integer significand of a finite value. -/
def fsigned (v : F64) : Int := if fsign v then -(fmant v : Int) else (fmant v : Int)

/-- The encoding with the given sign and the given 63 lower bits. -/
def fpack (neg : Bool) (magnitude : Nat) : F64 :=
  BitVec.ofNat 64 (magnitude + if neg then 2 ^ 63 else 0)

/-- Zero of the given sign. -/
def fzero (neg : Bool) : F64 := fpack neg 0

/-- Infinity of the given sign. -/
def finf (neg : Bool) : F64 := fpack neg (2047 * 2 ^ 52)

/-- The quiet NaN that an operation makes: the spec states neither its sign nor its payload, so both are a free value
(log 11). -/
def fnan : F64 := Config.nanBits ||| 0x7FF8000000000000

/-- `m / 2^d` (or `m * 2^-d`) rounded to an integer, to nearest, ties to even. -/
def roundShift (m : Nat) (d : Int) : Nat :=
  if d ≤ 0 then m * 2 ^ (-d).toNat
  else
    let unit := 2 ^ d.toNat
    let quot := m / unit
    let rest := 2 * (m % unit)
    if unit < rest ∨ (rest = unit ∧ quot % 2 = 1) then quot + 1 else quot

/-- `m * 2^e`, with the given sign, rounded to binary64, to nearest, ties to even (00_scope.md R11). The result's unit
is 2^q with 53 significand bits, or 2^-1074 in the subnormal range; a rounded significand of 2^53 carries into the
exponent field, and a result past the largest finite value is an infinity. -/
def roundPack (neg : Bool) (m : Nat) (e : Int) : F64 :=
  if m = 0 then fzero neg
  else
    let q : Int := max (e + (Nat.log2 m : Int) - 52) (-1074)
    let magnitude := (q + 1074).toNat * 2 ^ 52 + roundShift m (q - e)
    if 2047 * 2 ^ 52 ≤ magnitude then finf neg else fpack neg magnitude

/-- `num / den * 2^e` (`den` > 0), with the given sign, rounded once to binary64. The quotient is taken to at least 58
bits, and a last bit that says whether anything was cut off stands below them, so that rounding it is rounding the
exact quotient. -/
def roundRatio (neg : Bool) (num den : Nat) (e : Int) : F64 :=
  let k := Nat.log2 den + 60
  let scaled := num * 2 ^ k
  roundPack neg (2 * (scaled / den) + (if scaled % den = 0 then 0 else 1)) (e - (k : Int) - 1)

/-- Unary minus flips the sign bit (00_scope.md R11). -/
def fneg (v : F64) : F64 := v ^^^ 0x8000000000000000

/-- `|v|` clears the sign bit (00_scope.md R11). -/
def fabs (v : F64) : F64 := v &&& 0x7FFFFFFFFFFFFFFF

/-- Binary64 addition (00_scope.md R11). An exact zero sum is +0 unless both operands are negative. -/
def fadd (a b : F64) : F64 :=
  if fisNaN a || fisNaN b then fnan
  else if fisInf a then (if fisInf b && (fsign a != fsign b) then fnan else a)
  else if fisInf b then b
  else
    let e := min (fscale a) (fscale b)
    let sum := fsigned a * 2 ^ (fscale a - e).toNat + fsigned b * 2 ^ (fscale b - e).toNat
    if sum = 0 then fzero (fsign a && fsign b) else roundPack (decide (sum < 0)) sum.natAbs e

/-- Binary64 subtraction: the sum with the negated operand (00_scope.md R11). -/
def fsub (a b : F64) : F64 := fadd a (fneg b)

/-- Binary64 multiplication (00_scope.md R11). -/
def fmul (a b : F64) : F64 :=
  if fisNaN a || fisNaN b then fnan
  else if fisInf a || fisInf b then
    (if fisZero a || fisZero b then fnan else finf (fsign a != fsign b))
  else roundPack (fsign a != fsign b) (fmant a * fmant b) (fscale a + fscale b)

/-- Binary64 division (00_scope.md R11). -/
def fdiv (a b : F64) : F64 :=
  if fisNaN a || fisNaN b then fnan
  else if fisInf a then (if fisInf b then fnan else finf (fsign a != fsign b))
  else if fisInf b then fzero (fsign a != fsign b)
  else if fisZero b then (if fisZero a then fnan else finf (fsign a != fsign b))
  else roundRatio (fsign a != fsign b) (fmant a) (fmant b) (fscale a - fscale b)

/-- The largest `r + s` with `s < 2^i` and `(r + s)^2 ≤ n`, found bit by bit from the highest. -/
def isqrtFrom : Nat → Nat → Nat → Nat
  | 0, _, r => r
  | i + 1, n, r => if (r + 2 ^ i) * (r + 2 ^ i) ≤ n then isqrtFrom i n (r + 2 ^ i) else isqrtFrom i n r

/-- The correctly rounded binary64 square root (00_scope.md R11); of -0 it is -0, of a negative value a NaN. The
significand is scaled to an even power of two with at least 115 bits, its integer root has at least 58, and a last bit
says whether the root was cut off. -/
def fsqrt (v : F64) : F64 :=
  if fisNaN v then fnan
  else if fisZero v then v
  else if fsign v then fnan
  else if fisInf v then v
  else
    let odd := fscale v % 2 ≠ 0
    let m := fmant v * 2 ^ (if odd then 115 else 114)
    let e := fscale v - (if odd then 115 else 114)
    let r := isqrtFrom 85 m 0
    roundPack false (2 * r + (if r * r = m then 0 else 1)) (e / 2 - 1)

/-- The signed order key of a value that is no NaN: both zeros are 0, and larger values have larger keys. -/
def fkey (v : F64) : Int :=
  if fsign v then -((v.toNat % 2 ^ 63 : Nat) : Int) else ((v.toNat % 2 ^ 63 : Nat) : Int)

/-- `a < b`; false when either is a NaN (00_scope.md R11). -/
def flt (a b : F64) : Bool := !fisNaN a && !fisNaN b && decide (fkey a < fkey b)

/-- `a <= b`; false when either is a NaN (00_scope.md R11). -/
def fle (a b : F64) : Bool := !fisNaN a && !fisNaN b && decide (fkey a ≤ fkey b)

/-- `a > b`; false when either is a NaN (00_scope.md R11). -/
def fgt (a b : F64) : Bool := flt b a

/-- `a >= b`; false when either is a NaN (00_scope.md R11). -/
def fge (a b : F64) : Bool := fle b a

/-- `a == b`; false when either is a NaN, and true of the two zeros (00_scope.md R11). -/
def feq (a b : F64) : Bool := !fisNaN a && !fisNaN b && decide (fkey a = fkey b)

/-- The binary64 value nearest to a natural number; exact for every integer of magnitude up to 2^53. -/
def fnat (n : Nat) : F64 := roundPack false n 0

/-- The decimal literal `m / 10^k`: the binary64 value nearest to it (00_scope.md R11). `flit 4045 5` is 0.04045. -/
def flit (m k : Nat) : F64 := roundRatio false m (10 ^ k) 0

/-- The exact rational value of a finite binary64 value (00_scope.md R11). -/
def fvalue (v : F64) : Rat := (fsigned v : Rat) * (2 : Rat) ^ (fscale v)

end Sys2Proof.Machine
end

