-- ==== Sys2Proof/Laws/Float.lean ====
section
/-! SUPPORT. Binary64 addition and multiplication are commutative bit for bit (41_distance.md R150(a)), and only zero is
its own negative (R150(b)). -/

namespace Sys2Proof.Machine

theorem fmul_comm (a b : F64) : fmul a b = fmul b a := by
  simp only [fmul, Bool.or_comm (fisNaN a), Bool.or_comm (fisInf a), Bool.or_comm (fisZero a), Nat.mul_comm (fmant a),
    Int.add_comm (fscale a), bne_comm (a := fsign a)]

/-- Two infinities whose signs do not differ are the same value. -/
theorem eq_of_isInf {a b : F64} (ha : fisInf a = true) (hb : fisInf b = true) (hs : fsign a = fsign b) : a = b := by
  have hma : a.msb = fsign a := BitVec.msb_eq_getLsbD_last a
  have hmb : b.msb = fsign b := BitVec.msb_eq_getLsbD_last b
  rw [← hma, ← hmb, BitVec.msb_eq_decide, BitVec.msb_eq_decide] at hs
  have hs' := decide_eq_decide.1 hs
  simp only [fisInf, fexpField, ffrac, Bool.and_eq_true, beq_iff_eq] at ha hb
  have h1 := a.isLt
  have h2 := b.isLt
  apply BitVec.eq_of_toNat_eq
  omega

theorem fadd_comm (a b : F64) : fadd a b = fadd b a := by
  unfold fadd
  rw [Bool.or_comm (fisNaN a)]
  split
  · rfl
  · cases ha : fisInf a <;> cases hb : fisInf b
    · simp only [Bool.false_eq_true, if_false, Int.min_comm (fscale a), Int.add_comm (fsigned a * _), Bool.and_comm]
    · simp
    · simp
    · by_cases hs : fsign a = fsign b
      · simp [eq_of_isInf ha hb hs]
      · have : ¬ fsign b = fsign a := fun h => hs h.symm
        simp [hs, this]

/-- Negation changes the sign and keeps the magnitude, so it negates the place of a value in the order. -/
theorem fkey_fneg (v : F64) : fkey (fneg v) = -fkey v := by
  have hs : fsign (fneg v) = !fsign v := by simp [fneg, fsign]
  have hm : (fneg v).toNat % 2 ^ 63 = v.toNat % 2 ^ 63 := by
    have : (fneg v).setWidth 63 = v.setWidth 63 := by simp [fneg]
    simpa using congrArg BitVec.toNat this
  simp only [fkey, hs, hm]
  cases fsign v <;> simp

/-- A value that compares equal to its negative compares equal to zero. -/
theorem feq_zero_of_feq_neg {v : F64} (h : feq v (fneg v) = true) : feq v (fnat 0) = true := by
  have h0 : fkey (fnat 0) = 0 := by decide
  have hn : fisNaN (fnat 0) = false := by decide
  simp only [feq, Bool.and_eq_true, decide_eq_true_eq, fkey_fneg] at h
  simp only [feq, h0, hn, Bool.and_eq_true, decide_eq_true_eq, h.1.1, Bool.not_false, true_and]
  omega

end Sys2Proof.Machine
end

