-- ==== Sys2Proof/Machine/Store.lean ====
section
/-! DEFINITION. Sparse cells by number, in one canonical form: the host windows, PIX and the frame image. A cell that is
not listed is an unwritten one (10_state.md R41, log 17). -/

namespace Sys2Proof.Machine

/-- Cells by number, numbers strictly rising. -/
abbrev Store (α : Type) := List (Nat × α)

/-- The value of a cell, or `none` where nothing has been written (10_state.md R41). -/
def storeRead {α : Type} : Store α → Nat → Option α
  | [], _ => none
  | (k, v) :: rest, a => if k = a then some v else storeRead rest a

/-- The first write to a cell lists it, a later one replaces it; the rising order is kept. -/
def storeWrite {α : Type} : Store α → Nat → α → Store α
  | [], a, v => [(a, v)]
  | (k, w) :: rest, a, v =>
    if a < k then (a, v) :: (k, w) :: rest
    else if a = k then (a, v) :: rest
    else (k, w) :: storeWrite rest a v

/-- Consecutive cells written from a number on, the lowest first. -/
def storeWriteAll {α : Type} : Store α → Nat → List α → Store α
  | s, _, [] => s
  | s, a, v :: vs => storeWriteAll (storeWrite s a v) (a + 1) vs

/-- The values of `n` consecutive cells from a number on, or `none` if one of them is unwritten. -/
def storeReadAll {α : Type} (s : Store α) : Nat → Nat → Option (List α)
  | _, 0 => some []
  | a, n + 1 =>
    match storeRead s a with
    | none => none
    | some v =>
      match storeReadAll s (a + 1) n with
      | none => none
      | some vs => some (v :: vs)

/-- Every listed cell copied to the number `base` higher. -/
def storeCopy {α : Type} (base : Nat) : Store α → Store α → Store α
  | [], into => into
  | (k, v) :: rest, into => storeCopy base rest (storeWrite into (base + k) v)

/-- The canonical form: the numbers rise strictly, so no cell is listed twice. No listed entry reads as an unlisted one
does, because an unlisted cell has no value at all. -/
def storeWf {α : Type} : Store α → Bool
  | [] => true
  | [_] => true
  | (k, _) :: (k', v') :: rest => decide (k < k') && storeWf ((k', v') :: rest)

/-- The canonical form of the host windows: addresses strictly rising. An unlisted address has no value to read, so no
entry can equal what it reads as (10_state.md R41). -/
abbrev Memory.wf (m : List Host.Cell) : Bool := storeWf m

end Sys2Proof.Machine
end

