-- ==== Sys2Proof/Laws/Store.lean ====
section
/-! SUPPORT. What the operations on sparse cells do: reads after writes, and that each keeps the canonical form. -/

namespace Sys2Proof.Machine

theorem storeRead_storeWrite {α : Type} (s : Store α) (a b : Nat) (v : α) :
    storeRead (storeWrite s a v) b = if a = b then some v else storeRead s b := by
  induction s with
  | nil => simp [storeWrite, storeRead]
  | cons e rest ih =>
    obtain ⟨k, w⟩ := e
    simp only [storeWrite]
    split
    · simp [storeRead]
    · split
      · next _ h => subst h; simp only [storeRead]; split <;> simp_all
      · next _ h =>
        simp only [storeRead, ih]
        by_cases hk : k = b
        · subst hk; simp [h]
        · simp [hk]

@[simp] theorem storeRead_storeWrite_same {α : Type} (s : Store α) (a : Nat) (v : α) :
    storeRead (storeWrite s a v) a = some v := by simp [storeRead_storeWrite]

theorem storeRead_storeWrite_other {α : Type} (s : Store α) {a b : Nat} (v : α) (h : a ≠ b) :
    storeRead (storeWrite s a v) b = storeRead s b := by simp [storeRead_storeWrite, h]

@[simp] theorem storeRead_nil {α : Type} (a : Nat) : storeRead ([] : Store α) a = none := rfl

/-- The head of a written store is the written cell or the old head. -/
theorem storeWrite_head {α : Type} (s : Store α) (a : Nat) (v : α) :
    ∃ k w rest, storeWrite s a v = (k, w) :: rest ∧ (k = a ∨ ∃ w' rest', s = (k, w') :: rest') := by
  cases s with
  | nil => exact ⟨a, v, [], rfl, .inl rfl⟩
  | cons e rest =>
    obtain ⟨k, w⟩ := e
    simp only [storeWrite]
    split
    · exact ⟨_, _, _, rfl, .inl rfl⟩
    · split
      · exact ⟨_, _, _, rfl, .inl rfl⟩
      · exact ⟨_, _, _, rfl, .inr ⟨_, _, rfl⟩⟩

theorem storeWf_tail {α : Type} {e : Nat × α} {s : Store α} (h : storeWf (e :: s) = true) : storeWf s = true := by
  cases s with
  | nil => rfl
  | cons f rest => simp [storeWf] at h; exact h.2

theorem storeWf_storeWrite {α : Type} (s : Store α) (a : Nat) (v : α) (h : storeWf s = true) :
    storeWf (storeWrite s a v) = true := by
  induction s with
  | nil => rfl
  | cons e rest ih =>
    obtain ⟨k, w⟩ := e
    simp only [storeWrite]
    split
    · next hlt => simp [storeWf, hlt, h]
    · split
      · next _ heq => subst heq; cases rest <;> simp_all [storeWf]
      · next hlt hne =>
        have ih' := ih (storeWf_tail h)
        obtain ⟨k', w', rest', hw, hhead⟩ := storeWrite_head rest a v
        rw [hw] at ih' ⊢
        simp only [storeWf, Bool.and_eq_true, decide_eq_true_eq]
        refine ⟨?_, ih'⟩
        rcases hhead with rfl | ⟨w'', rest'', rfl⟩
        · omega
        · simp [storeWf] at h; exact h.1

theorem storeRead_storeWriteAll {α : Type} (vs : List α) (s : Store α) (a b : Nat) :
    storeRead (storeWriteAll s a vs) b =
      if a ≤ b ∧ b < a + vs.length then vs[b - a]? else storeRead s b := by
  induction vs generalizing s a with
  | nil => rw [storeWriteAll, if_neg (by simp only [List.length_nil]; omega)]
  | cons v vs ih =>
    rw [storeWriteAll, ih, storeRead_storeWrite, List.length_cons]
    by_cases h : a = b
    · subst h
      rw [if_neg (by omega), if_pos rfl, if_pos (by omega), Nat.sub_self, List.getElem?_cons_zero]
    · by_cases h2 : a + 1 ≤ b ∧ b < a + 1 + vs.length
      · rw [if_pos h2, if_pos (by omega), (by omega : b - a = (b - (a + 1)) + 1), List.getElem?_cons_succ]
      · rw [if_neg h2, if_neg h, if_neg (by omega)]

theorem storeWf_storeWriteAll {α : Type} (vs : List α) (s : Store α) (a : Nat) (h : storeWf s = true) :
    storeWf (storeWriteAll s a vs) = true := by
  induction vs generalizing s a with
  | nil => exact h
  | cons v vs ih => exact ih _ _ (storeWf_storeWrite s a v h)

theorem storeWf_storeCopy {α : Type} (base : Nat) (s into : Store α) (h : storeWf into = true) :
    storeWf (storeCopy base s into) = true := by
  induction s generalizing into with
  | nil => exact h
  | cons e rest ih => exact ih _ (storeWf_storeWrite into _ _ h)

/-- A cell below every copied number reads as before. -/
theorem storeRead_storeCopy_below {α : Type} (base : Nat) (s into : Store α) (b : Nat) (h : b < base) :
    storeRead (storeCopy base s into) b = storeRead into b := by
  induction s generalizing into with
  | nil => rfl
  | cons e rest ih =>
    obtain ⟨k, v⟩ := e
    simp only [storeCopy, ih]
    exact storeRead_storeWrite_other into v (by omega)

/-- Every key of a canonical tail is larger than the head's. -/
theorem storeRead_of_le_head {α : Type} {k : Nat} {v : α} {rest : Store α} (h : storeWf ((k, v) :: rest) = true)
    {b : Nat} (hb : b ≤ k) : storeRead rest b = none := by
  induction rest generalizing k v with
  | nil => rfl
  | cons e rest ih =>
    obtain ⟨k', v'⟩ := e
    simp [storeWf] at h
    have hne : k' ≠ b := by omega
    simp only [storeRead, hne, if_false]
    exact ih h.2 (by omega)

/-- A copied cell of a canonical source reads as the source does; a cell the source does not list as before. -/
theorem storeRead_storeCopy {α : Type} (base : Nat) (s into : Store α) (b : Nat) (h : storeWf s = true) :
    storeRead (storeCopy base s into) (base + b) =
      match storeRead s b with
      | some v => some v
      | none => storeRead into (base + b) := by
  induction s generalizing into with
  | nil => rfl
  | cons e rest ih =>
    obtain ⟨k, v⟩ := e
    simp only [storeCopy, ih _ (storeWf_tail h), storeRead]
    by_cases hk : k = b
    · subst hk; simp [storeRead_of_le_head h (Nat.le_refl k)]
    · have : ¬ base + k = base + b := by omega
      simp [hk, storeRead_storeWrite_other _ _ this]

theorem storeReadAll_isSome {α : Type} (s : Store α) (a n : Nat)
    (h : ∀ k, a ≤ k → k < a + n → (storeRead s k).isSome) : (storeReadAll s a n).isSome := by
  induction n generalizing a with
  | zero => rfl
  | succ n ih =>
    have h0 := h a (Nat.le_refl a) (by omega)
    obtain ⟨v, hv⟩ := Option.isSome_iff_exists.1 h0
    have h1 := ih (a + 1) (fun k hk hk' => h k (by omega) (by omega))
    obtain ⟨vs, hvs⟩ := Option.isSome_iff_exists.1 h1
    simp [storeReadAll, hv, hvs]

/-- A read of several cells succeeds only with as many values as it was asked for. -/
theorem storeReadAll_length {α : Type} (s : Store α) (a n : Nat) (vs : List α) (h : storeReadAll s a n = some vs) :
    vs.length = n := by
  induction n generalizing a vs with
  | zero => simp [storeReadAll] at h; subst h; rfl
  | succ n ih =>
    simp only [storeReadAll] at h
    split at h
    · cases h
    · split at h
      · cases h
      · next hs => injection h with h; subst h; simp [ih _ _ hs]

end Sys2Proof.Machine
end

