-- ==== Sys2Proof/Machine/ColorMath.lean ====
section
/-! DEFINITION. The ColorMath unit: pure functions, no state (40_colormath.md R110 to R117). -/

namespace Sys2Proof.Machine

/-- The elementary functions, taken as arguments (00_scope.md R12). Their laws are in Machine/Binding.lean. -/
structure Elem where
  /-- `F_pow(x, y)`. -/
  pow : F64 → F64 → F64
  /-- `F_atan2(y, x)`. -/
  atan2 : F64 → F64 → F64
  /-- `F_sin(r)`. -/
  sin : F64 → F64
  /-- `F_cos(r)`. -/
  cos : F64 → F64
  /-- `F_exp(v)`. -/
  exp : F64 → F64
deriving Inhabited

/-- A triple of binary64 channels in the order r, g, b: a LinearColor (00_scope.md R16). -/
structure LinearColor where
  /-- Red. -/
  r : F64
  /-- Green. -/
  g : F64
  /-- Blue. -/
  b : F64
deriving DecidableEq, Repr, Inhabited

/-- A triple (L, a, b): a LabColor (00_scope.md R16). -/
structure LabColor where
  /-- Lightness. -/
  L : F64
  /-- First chroma axis. -/
  a : F64
  /-- Second chroma axis. -/
  b : F64
deriving DecidableEq, Repr, Inhabited

/-- A 3 x 3 binary64 matrix by rows (40_colormath.md R115). -/
structure Matrix33 where
  /-- The row of X: the factors of R, G, B. -/
  x : LinearColor
  /-- The row of Y. -/
  y : LinearColor
  /-- The row of Z. -/
  z : LinearColor
deriving DecidableEq, Repr, Inhabited

/-- What the arithmetic units take as arguments (00_scope.md R8). -/
structure Params where
  /-- The F_* functions. -/
  elem : Elem
  /-- `M_XYZ`. -/
  mxyz : Matrix33
deriving Inhabited

/-- The default of `M_XYZ`: the coefficients of 40_colormath.md R115, from general knowledge (GK-1). PRESUMED (log 6). -/
def defaultMatrix : Matrix33 :=
  { x := ⟨flit 4124 4, flit 3576 4, flit 1805 4⟩
    y := ⟨flit 2126 4, flit 7152 4, flit 722 4⟩
    z := ⟨flit 193 4, flit 1192 4, flit 9505 4⟩ }

/-- `clamp(v, lo, hi)` (40_colormath.md R111): a NaN passes through. -/
def clamp (v lo hi : F64) : F64 :=
  if flt v lo then lo else if fgt v hi then hi else v

/-- `unit8(c) = float(c) / 255.0` (40_colormath.md R113). -/
def unit8 (c : Byte) : F64 := fdiv (fnat c.toNat) (fnat 255)

/-- `gammaLinear(s)`: the strict comparison sends 0.04045 to the linear branch (40_colormath.md R112). -/
def gammaLinear (E : Elem) (s : F64) : F64 :=
  if fgt s (flit 4045 5) then E.pow (fdiv (fadd s (flit 55 3)) (flit 1055 3)) (flit 24 1)
  else fdiv s (flit 1292 2)

/-- One channel scaled to percentage and clamped to [0,100] (40_colormath.md R114). -/
def percent (c : F64) : F64 := clamp (fmul c (fnat 100)) (fnat 0) (fnat 100)

/-- One row of the matrix applied to the scaled channels, summed left to right (40_colormath.md R115). -/
def matrixRow (row c : LinearColor) : F64 :=
  fadd (fadd (fmul c.r row.r) (fmul c.g row.g)) (fmul c.b row.b)

/-- The CIE nonlinear correction `labF(t)` (40_colormath.md R116). -/
def labF (E : Elem) (t : F64) : F64 :=
  if fgt t (flit 8856 6) then E.pow t (fdiv (fnat 1) (fnat 3))
  else fadd (fmul (flit 7787 3) t) (fdiv (fnat 16) (fnat 116))

/-- `rgbToLab(c)` (40_colormath.md R114 to R117). -/
def rgbToLab (P : Params) (c : LinearColor) : LabColor :=
  let s : LinearColor := ⟨percent c.r, percent c.g, percent c.b⟩
  let fx := labF P.elem (fdiv (matrixRow P.mxyz.x s) (flit 95047 3))
  let fy := labF P.elem (fdiv (matrixRow P.mxyz.y s) (fnat 100))
  let fz := labF P.elem (fdiv (matrixRow P.mxyz.z s) (flit 108883 3))
  { L := fsub (fmul (fnat 116) fy) (fnat 16)
    a := fmul (fnat 500) (fsub fx fy)
    b := fmul (fnat 200) (fsub fy fz) }

end Sys2Proof.Machine
end

