-- ==== Sys2Proof/Machine/Distance.lean ====
section
/-! DEFINITION. The PerceptualDistance unit: CIEDE2000 and the nearest palette entry (41_distance.md R140 to R149,
R152). Every expression is evaluated as written there, left to right (00_scope.md R11). -/

namespace Sys2Proof.Machine

/-- `PI`: the binary64 value nearest to π (00_scope.md R12, which gives no bits; DEDUCED, log 20). -/
def fpi : F64 := 0x400921FB54442D18

/-- `DEG2RAD = PI / 180.0` (00_scope.md R12). -/
def deg2rad : F64 := fdiv fpi (fnat 180)

/-- `RAD2DEG = 180.0 / PI` (00_scope.md R12). -/
def rad2deg : F64 := fdiv (fnat 180) fpi

/-- `v * v`. -/
def fsquare (v : F64) : F64 := fmul v v

/-- Chroma `sqrt(x*x + y*y)` (41_distance.md R141, R142). -/
def chroma (x y : F64) : F64 := fsqrt (fadd (fsquare x) (fsquare y))

/-- `(x + y) / 2.0` (41_distance.md R141, R144). -/
def fmean (x y : F64) : F64 := fdiv (fadd x y) (fnat 2)

/-- `sqrt(c7 / (c7 + 25^7))` with `c7 = F_pow(c, 7.0)`: the chroma ratio of the G correction (41_distance.md R142) and
of the rotation term (R148). -/
def chromaRatio (E : Elem) (c : F64) : F64 :=
  let c7 := E.pow c (fnat 7)
  fsqrt (fdiv c7 (fadd c7 (fnat 6103515625)))

/-- The G correction from the mean chroma (41_distance.md R142). -/
def gCorrection (E : Elem) (cbar : F64) : F64 :=
  fmul (flit 5 1) (fsub (fnat 1) (chromaRatio E cbar))

/-- `hueDeg(y, x)`: a hue angle in degrees in [0,360) (41_distance.md R143). -/
def hueDeg (E : Elem) (y x : F64) : F64 :=
  let h := fmul (E.atan2 y x) rad2deg
  let h := if flt h (fnat 0) then fadd h (fnat 360) else h
  if fge h (fnat 360) then fsub h (fnat 360) else h

/-- The mean hue: past a difference of 180 degrees, 360 is added and nothing is subtracted (41_distance.md R144,
90_conflicts.md C3). -/
def meanHue (h1 h2 : F64) : F64 :=
  if fgt (fabs (fsub h1 h2)) (fnat 180) then fdiv (fadd (fadd h1 h2) (fnat 360)) (fnat 2)
  else fdiv (fadd h1 h2) (fnat 2)

/-- The weighting function T of the mean hue (41_distance.md R145). -/
def weightT (E : Elem) (hbar : F64) : F64 :=
  let t1 := fmul (flit 17 2) (E.cos (fmul (fsub hbar (fnat 30)) deg2rad))
  let t2 := fmul (flit 24 2) (E.cos (fmul (fmul (fnat 2) hbar) deg2rad))
  let t3 := fmul (flit 32 2) (E.cos (fmul (fadd (fmul (fnat 3) hbar) (fnat 6)) deg2rad))
  let t4 := fmul (flit 20 2) (E.cos (fmul (fsub (fmul (fnat 4) hbar) (fnat 63)) deg2rad))
  fsub (fadd (fadd (fsub (fnat 1) t1) t2) t3) t4

/-- The hue delta with its 360 degree wrap correction (41_distance.md R146). -/
def hueDelta (h1 h2 : F64) : F64 :=
  let d := fsub h2 h1
  if fgt (fabs d) (fnat 180) then (if fle h2 h1 then fadd d (fnat 360) else fsub d (fnat 360)) else d

/-- The chroma-weighted hue delta `dHp` (41_distance.md R146). -/
def chromaHueDelta (E : Elem) (c1 c2 dh : F64) : F64 :=
  fmul (fmul (fnat 2) (fsqrt (fmul c1 c2))) (E.sin (fmul (fdiv dh (fnat 2)) deg2rad))

/-- The lightness scaling factor SL (41_distance.md R147). -/
def scaleL (lbar : F64) : F64 :=
  let q := fmul (fsub lbar (fnat 50)) (fsub lbar (fnat 50))
  fadd (fnat 1) (fdiv (fmul (flit 15 3) q) (fsqrt (fadd (fnat 20) q)))

/-- The chroma scaling factor SC (41_distance.md R147). -/
def scaleC (cbar : F64) : F64 := fadd (fnat 1) (fmul (flit 45 3) cbar)

/-- The hue scaling factor SH (41_distance.md R147). -/
def scaleH (cbar t : F64) : F64 := fadd (fnat 1) (fmul (fmul (flit 15 3) cbar) t)

/-- The rotation term RT (41_distance.md R148). -/
def rotationTerm (E : Elem) (hbar cbar : F64) : F64 :=
  let u := fdiv (fsub hbar (fnat 275)) (fnat 25)
  let dTheta := fmul (fnat 30) (E.exp (fneg (fmul u u)))
  let rc := fmul (fnat 2) (chromaRatio E cbar)
  fmul (fneg rc) (E.sin (fmul (fmul (fnat 2) dTheta) deg2rad))

/-- The square root of the three weighted deltas and the cross term (41_distance.md R149). -/
def combineDeltas (tL tC tH rt : F64) : F64 :=
  fsqrt (fadd (fadd (fadd (fsquare tL) (fsquare tC)) (fsquare tH)) (fmul (fmul rt tC) tH))

/-- CIEDE2000 from the two Lab colours (41_distance.md R141 to R149). -/
def labDifference (E : Elem) (p q : LabColor) : F64 :=
  let g := gCorrection E (fmean (chroma p.a p.b) (chroma q.a q.b))
  let a1p := fmul p.a (fadd (fnat 1) g)
  let a2p := fmul q.a (fadd (fnat 1) g)
  let c1p := chroma a1p p.b
  let c2p := chroma a2p q.b
  let h1p := hueDeg E p.b a1p
  let h2p := hueDeg E q.b a2p
  let cbarp := fmean c1p c2p
  let hbarp := meanHue h1p h2p
  let dLp := fsub q.L p.L
  let dCp := fsub c2p c1p
  let dHp := chromaHueDelta E c1p c2p (hueDelta h1p h2p)
  let tL := fdiv dLp (scaleL (fmean p.L q.L))
  let tC := fdiv dCp (scaleC cbarp)
  let tH := fdiv dHp (scaleH cbarp (weightT E hbarp))
  combineDeltas tL tC tH (rotationTerm E hbarp cbarp)

/-- `colorDifference(c1, c2)` (41_distance.md R140, R141). -/
def colorDifference (P : Params) (c1 c2 : LinearColor) : F64 :=
  labDifference P.elem (rgbToLab P c1) (rgbToLab P c2)

/-- The palette: seven LinearColors in index order (10_state.md R31). -/
structure Palette where
  /-- Index 0. -/
  black : LinearColor
  /-- Index 1. -/
  white : LinearColor
  /-- Index 2. -/
  green : LinearColor
  /-- Index 3. -/
  blue : LinearColor
  /-- Index 4. -/
  red : LinearColor
  /-- Index 5. -/
  yellow : LinearColor
  /-- Index 6. -/
  orange : LinearColor
deriving DecidableEq, Repr, Inhabited

/-- `PAL[i]` (10_state.md R31). -/
def paletteEntry (pal : Palette) (i : Fin 7) : LinearColor :=
  match i with
  | 0 => pal.black
  | 1 => pal.white
  | 2 => pal.green
  | 3 => pal.blue
  | 4 => pal.red
  | 5 => pal.yellow
  | 6 => pal.orange

/-- One comparison of the selection: strictly smaller wins, so the first entry met wins a tie (41_distance.md R152). -/
def closer (P : Params) (pal : Palette) (p : LinearColor) (best : Fin 7 × F64) (i : Fin 7) : Fin 7 × F64 :=
  let d := colorDifference P p (paletteEntry pal i)
  if flt d best.2 then (i, d) else best

/-- `nearest(p)`: the index and its distance, entries 0 to 6 in order (41_distance.md R152). -/
def nearest (P : Params) (pal : Palette) (p : LinearColor) : Fin 7 × F64 :=
  [1, 2, 3, 4, 5, 6].foldl (closer P pal p) (0, colorDifference P p (paletteEntry pal 0))

end Sys2Proof.Machine
end

