-- ==== Sys2Proof/Machine/Packer.lean ====
section
/-! DEFINITION. The FrameEncoder: index packing, the orientation transform and the frame header (43_packer.md R210 to
R217), over the engine's work area. -/

namespace Sys2Proof.Machine

/-- The scan cursor, the block's program-counter analogue (10_state.md R38). -/
structure Cursor where
  /-- Column, 0..599. -/
  x : Fin Config.W
  /-- Row, 0..447. -/
  y : Fin Config.H
deriving DecidableEq, Repr

/-- LATCH, the 4-bit pending low nibble register, with its unwritten mark (10_state.md R39, R41). -/
structure Latch where
  /-- The latched index. -/
  value : BitVec 4
  /-- No write since reset. -/
  unwritten : Bool
deriving DecidableEq, Repr

/-- What the engine works on during a CONVERT: the cursor, LATCH, the pixel buffer PIX and the frame image `fb`
(10_state.md R35, R38, R39; 42_ditherer.md R190). No host offset reaches it (20_memory.md R60). -/
structure Scan where
  /-- The pixel being quantised (10_state.md R38). -/
  cursor : Cursor
  /-- The pending low nibble (10_state.md R39). -/
  latch : Latch
  /-- PIX: channel `c` of pixel number `p` is cell `3*p + c` (10_state.md R35). -/
  pix : Store F64
  /-- The engine's frame image, bytes 0..134463 (42_ditherer.md R190). -/
  fb : Store Byte
deriving DecidableEq, Repr

/-- The cursor's pixel number in row-major order, `y*W + x` (10_state.md R33, R35). -/
def pixelNumber (x y : Nat) : Nat := y * Config.W + x

/-- Where the scan starts (10_state.md R38). -/
def cursorStart : Cursor := ⟨0, 0⟩

/-- The next pixel in row-major order; past the last pixel the cursor never wraps (10_state.md R38). -/
def cursorNext (c : Cursor) : Cursor :=
  if hx : c.x.val + 1 < Config.W then { c with x := ⟨c.x.val + 1, hx⟩ }
  else if hy : c.y.val + 1 < Config.H then { x := 0, y := ⟨c.y.val + 1, hy⟩ }
  else c

/-- The orientation coordinate of a pair whose even member is `(xe, y)` (43_packer.md R212). -/
def orient (rot180 : Bool) (xe y : Nat) : Nat × Nat :=
  if rot180 then (Config.W - 1 - xe, Config.H - 1 - y) else (xe, y)

/-- `pos(xe, y)`: the byte's offset in the frame image (43_packer.md R213). -/
def bytePos (rot180 : Bool) (xe y : Nat) : Nat :=
  let p := orient rot180 xe y
  Config.HDR_LEN + (p.2 * Config.W + p.1) / 2

/-- The 4 index bits of a palette index (43_packer.md R211). -/
def indexNibble (i : Fin 7) : BitVec 4 := BitVec.ofNat 4 i.val

/-- The packed byte: bits [7:4] the index of the odd member, bits [3:0] the latched index (43_packer.md R211). -/
def packedByte (i : Fin 7) (low : BitVec 4) : Byte := indexNibble i ++ low

/-- `pack(x, y, i)` at the cursor (43_packer.md R211): at even x the index is latched, at odd x the pair's byte is
written. `none` says that an unwritten LATCH was read (10_state.md R41), which R39 derives never happens in a scan. -/
def packIndex (rot180 : Bool) (i : Fin 7) (sc : Scan) : Option Scan :=
  if sc.cursor.x.val % 2 = 0 then some { sc with latch := ⟨indexNibble i, false⟩ }
  else if sc.latch.unwritten then none
  else
    some { sc with
      fb := storeWrite sc.fb (bytePos rot180 (sc.cursor.x.val - 1) sc.cursor.y.val) (packedByte i sc.latch.value) }

/-- The 64 header bytes: the magic and the timestamp little-endian, then 52 zeros (43_packer.md R215, R216, R217). -/
def headerBytes (timestamp : Word) : List Byte :=
  bytesOf (Config.MAGIC.setWidth 64) 4 ++ bytesOf timestamp Config.TS_LEN ++ List.replicate 52 0

end Sys2Proof.Machine
end

