-- ==== Sys2Proof/Machine/Dither.lean ====
section
/-! DEFINITION. The Quantizer/Ditherer engine: load, quantise, diffuse, emit (42_ditherer.md R183 to R189). `none` says
that an unwritten cell was read (10_state.md R41). -/

namespace Sys2Proof.Machine

/-- PIX at pixel number `p`, all three channels (10_state.md R35). -/
def readPixel (pix : Store F64) (p : Nat) : Option LinearColor :=
  match storeRead pix (3 * p), storeRead pix (3 * p + 1), storeRead pix (3 * p + 2) with
  | some r, some g, some b => some ⟨r, g, b⟩
  | _, _, _ => none

/-- PIX written at pixel number `p`, channels r, g, b in this order (10_state.md R35). -/
def writePixel (pix : Store F64) (p : Nat) (c : LinearColor) : Store F64 :=
  storeWrite (storeWrite (storeWrite pix (3 * p) c.r) (3 * p + 1) c.g) (3 * p + 2) c.b

/-- One loaded channel: `gammaLinear(unit8(byte))` (42_ditherer.md R183). -/
def loadChannel (E : Elem) (c : Byte) : F64 := gammaLinear E (unit8 c)

/-- The load of `n` pixels from pixel number `p` on, where `src k` is SRC byte `k`: bytes 4p, 4p+1 and 4p+2 are read,
the alpha byte 4p+3 is not (42_ditherer.md R183; 10_state.md R33). -/
def loadPixels (E : Elem) (src : Nat → Option Byte) : Nat → Nat → Store F64 → Option (Store F64)
  | 0, _, pix => some pix
  | n + 1, p, pix =>
    match src (4 * p), src (4 * p + 1), src (4 * p + 2) with
    | some r, some g, some b =>
      loadPixels E src n (p + 1) (writePixel pix p ⟨loadChannel E r, loadChannel E g, loadChannel E b⟩)
    | _, _, _ => none

/-- The residual `p - PAL[i]`, per channel, not clamped (42_ditherer.md R186). -/
def residual (p e : LinearColor) : LinearColor := ⟨fsub p.r e.r, fsub p.g e.g, fsub p.b e.b⟩

/-- One channel after diffusion: `clamp(v + err * w, 0.0, 1.0)` (42_ditherer.md R187). -/
def diffuseChannel (v err w : F64) : F64 := clamp (fadd v (fmul err w)) (fnat 0) (fnat 1)

/-- One target of the kernel: its offset from the cursor and its weight (42_ditherer.md R187). -/
structure KernelTap where
  /-- Column offset. -/
  dx : Int
  /-- Row offset. -/
  dy : Int
  /-- Weight. -/
  w : F64
deriving DecidableEq, Repr

/-- The four Floyd-Steinberg targets and their weights (42_ditherer.md R187). -/
def kernelTaps : List KernelTap :=
  [⟨1, 0, fdiv (fnat 7) (fnat 16)⟩, ⟨-1, 1, fdiv (fnat 3) (fnat 16)⟩,
   ⟨0, 1, fdiv (fnat 5) (fnat 16)⟩, ⟨1, 1, fdiv (fnat 1) (fnat 16)⟩]

/-- The pixel number of a target, or `none` outside the image (42_ditherer.md R188). -/
def tapTarget (x y : Nat) (t : KernelTap) : Option Nat :=
  let nx := (x : Int) + t.dx
  let ny := (y : Int) + t.dy
  if 0 ≤ nx ∧ nx < Config.W ∧ 0 ≤ ny ∧ ny < Config.H then some (pixelNumber nx.toNat ny.toNat) else none

/-- Diffusion to one target; a target outside the image is dropped without any effect (42_ditherer.md R187, R188). -/
def diffuseTap (x y : Nat) (err : LinearColor) (pix : Store F64) (t : KernelTap) : Option (Store F64) :=
  match tapTarget x y t with
  | none => some pix
  | some p =>
    match readPixel pix p with
    | none => none
    | some q =>
      some (writePixel pix p
        ⟨diffuseChannel q.r err.r t.w, diffuseChannel q.g err.g t.w, diffuseChannel q.b err.b t.w⟩)

/-- Diffusion to the listed targets in their order (42_ditherer.md R187). -/
def diffuseTaps (x y : Nat) (err : LinearColor) : List KernelTap → Store F64 → Option (Store F64)
  | [], pix => some pix
  | t :: rest, pix =>
    match diffuseTap x y err pix t with
    | none => none
    | some pix' => diffuseTaps x y err rest pix'

/-- The index chosen at the cursor (42_ditherer.md R185). -/
def chosenIndex (P : Params) (pal : Palette) (sc : Scan) : Option (Fin 7) :=
  match readPixel sc.pix (pixelNumber sc.cursor.x.val sc.cursor.y.val) with
  | none => none
  | some p => some (nearest P pal p).1

/-- One pixel of the scan: quantise, diffuse the residual, emit the index (42_ditherer.md R185 to R189). -/
def scanPixel (P : Params) (pal : Palette) (rot180 : Bool) (sc : Scan) : Option Scan :=
  let x := sc.cursor.x.val
  let y := sc.cursor.y.val
  match readPixel sc.pix (pixelNumber x y) with
  | none => none
  | some p =>
    let i := (nearest P pal p).1
    match diffuseTaps x y (residual p (paletteEntry pal i)) kernelTaps sc.pix with
    | none => none
    | some pix => packIndex rot180 i { sc with pix := pix }

/-- `n` pixels of the scan, the cursor advancing after each (42_ditherer.md R184). -/
def scanPixels (P : Params) (pal : Palette) (rot180 : Bool) : Nat → Scan → Option Scan
  | 0, sc => some sc
  | n + 1, sc =>
    match scanPixel P pal rot180 sc with
    | none => none
    | some sc' => scanPixels P pal rot180 n { sc' with cursor := cursorNext sc'.cursor }

/-- Load and scan of a whole image: every pixel loaded, then every pixel scanned from (0, 0) on (42_ditherer.md R183,
R184). -/
def convertScan (P : Params) (pal : Palette) (rot180 : Bool) (src : Nat → Option Byte) (sc : Scan) : Option Scan :=
  match loadPixels P.elem src Config.numPixels 0 sc.pix with
  | none => none
  | some pix => scanPixels P pal rot180 Config.numPixels { sc with cursor := cursorStart, pix := pix }

end Sys2Proof.Machine
end

