-- ==== Sys2Proof/Laws/Scan.lean ====
section
/-! SUPPORT. What the load and the scan of a CONVERT do to PIX, LATCH and the cursor (42_ditherer.md R183 to R189). -/

namespace Sys2Proof.Machine

theorem storeRead_writePixel (pix : Store F64) (p : Nat) (c : LinearColor) (k : Nat) :
    storeRead (writePixel pix p c) k =
      if k = 3 * p then some c.r else if k = 3 * p + 1 then some c.g else if k = 3 * p + 2 then some c.b
      else storeRead pix k := by
  simp only [writePixel, storeRead_storeWrite, eq_comm (b := k)]
  by_cases h0 : k = 3 * p
  · simp [h0]
  · by_cases h1 : k = 3 * p + 1
    · simp [h1]
    · simp [h0, h1]

/-- A written pixel reads back. -/
@[simp] theorem readPixel_writePixel_same (pix : Store F64) (p : Nat) (c : LinearColor) :
    readPixel (writePixel pix p c) p = some c := by
  simp [readPixel, storeRead_writePixel]

theorem readPixel_writePixel_other (pix : Store F64) {p q : Nat} (c : LinearColor) (h : p ≠ q) :
    readPixel (writePixel pix p c) q = readPixel pix q := by
  have h0 : ∀ d, d < 3 → storeRead (writePixel pix p c) (3 * q + d) = storeRead pix (3 * q + d) := by
    intro d hd
    rw [storeRead_writePixel]
    split <;> (try split) <;> (try split) <;> first | rfl | omega
  have e0 := h0 0 (by omega)
  simp only [Nat.add_zero] at e0
  simp only [readPixel, e0, h0 1 (by omega), h0 2 (by omega)]

theorem readPixel_writePixel (pix : Store F64) (p q : Nat) (c : LinearColor) :
    readPixel (writePixel pix p c) q = if p = q then some c else readPixel pix q := by
  split
  · next h => subst h; simp
  · next h => exact readPixel_writePixel_other pix c h

theorem storeWf_writePixel (pix : Store F64) (p : Nat) (c : LinearColor) (h : storeWf pix = true) :
    storeWf (writePixel pix p c) = true :=
  storeWf_storeWrite _ _ _ (storeWf_storeWrite _ _ _ (storeWf_storeWrite _ _ _ h))

/-- The load succeeds when the R, G and B bytes of its pixels are written, and then each of those pixels holds the
linear values of its own three bytes and every other pixel is as before (42_ditherer.md R183). -/
theorem loadPixels_spec (E : Elem) (src : Nat → Option Byte) (n p : Nat) (pix : Store F64)
    (h : ∀ q, p ≤ q → q < p + n → (src (4 * q)).isSome ∧ (src (4 * q + 1)).isSome ∧ (src (4 * q + 2)).isSome) :
    ∃ pix', loadPixels E src n p pix = some pix' ∧
      (∀ q, p ≤ q → q < p + n → ∀ r g b, src (4 * q) = some r → src (4 * q + 1) = some g →
        src (4 * q + 2) = some b →
        readPixel pix' q = some ⟨loadChannel E r, loadChannel E g, loadChannel E b⟩) ∧
      (∀ q, q < p ∨ p + n ≤ q → readPixel pix' q = readPixel pix q) := by
  induction n generalizing p pix with
  | zero => exact ⟨pix, rfl, fun q h1 h2 => by omega, fun _ _ => rfl⟩
  | succ n ih =>
    obtain ⟨hr, hg, hb⟩ := h p (Nat.le_refl p) (by omega)
    obtain ⟨r, hr⟩ := Option.isSome_iff_exists.1 hr
    obtain ⟨g, hg⟩ := Option.isSome_iff_exists.1 hg
    obtain ⟨b, hb⟩ := Option.isSome_iff_exists.1 hb
    obtain ⟨pix', hl, hin, hout⟩ :=
      ih (p + 1) (writePixel pix p ⟨loadChannel E r, loadChannel E g, loadChannel E b⟩)
        (fun q h1 h2 => h q (by omega) (by omega))
    refine ⟨pix', by simp only [loadPixels, hr, hg, hb, hl], ?_, ?_⟩
    · intro q h1 h2 r' g' b' hr' hg' hb'
      by_cases hq : q = p
      · subst hq
        rw [hout q (by omega)]
        simp_all
      · exact hin q (by omega) (by omega) r' g' b' hr' hg' hb'
    · intro q hq
      rw [hout q (by omega), readPixel_writePixel_other _ _ (by omega)]

/-- The load never unlists the canonical form. -/
theorem loadPixels_wf (E : Elem) (src : Nat → Option Byte) (n p : Nat) (pix pix' : Store F64)
    (h : loadPixels E src n p pix = some pix') (hw : storeWf pix = true) : storeWf pix' = true := by
  induction n generalizing p pix with
  | zero => simp [loadPixels] at h; subst h; exact hw
  | succ n ih =>
    simp only [loadPixels] at h
    split at h
    · exact ih _ _ h (storeWf_writePixel _ _ _ hw)
    · cases h

/-- Every pixel of the image is written. -/
def AllWritten (pix : Store F64) : Prop := ∀ q, q < Config.numPixels → (readPixel pix q).isSome

theorem tapTarget_lt {x y : Nat} {t : KernelTap} {p : Nat} (h : tapTarget x y t = some p) : p < Config.numPixels := by
  simp only [tapTarget] at h
  split at h
  · next hr =>
    injection h with h
    simp only [pixelNumber, Config.W, Config.H] at *
    simp only [Config.numPixels]
    omega
  · cases h

/-- Diffusion to one target: either nothing changes, or one pixel is rewritten (42_ditherer.md R187, R188). -/
theorem diffuseTap_cases {x y : Nat} {err : LinearColor} {pix pix' : Store F64} {t : KernelTap}
    (h : diffuseTap x y err pix t = some pix') :
    (tapTarget x y t = none ∧ pix' = pix) ∨
    ∃ p q, tapTarget x y t = some p ∧ readPixel pix p = some q ∧
      pix' = writePixel pix p
        ⟨diffuseChannel q.r err.r t.w, diffuseChannel q.g err.g t.w, diffuseChannel q.b err.b t.w⟩ := by
  simp only [diffuseTap] at h
  split at h
  · next h0 => injection h with h; exact .inl ⟨h0, h.symm⟩
  · next p h0 =>
    split at h
    · cases h
    · next q hq => injection h with h; exact .inr ⟨p, q, h0, hq, h.symm⟩

theorem diffuseTap_total {x y : Nat} (err : LinearColor) {pix : Store F64} (t : KernelTap) (h : AllWritten pix) :
    ∃ pix', diffuseTap x y err pix t = some pix' ∧ AllWritten pix' := by
  simp only [diffuseTap]
  split
  · exact ⟨pix, rfl, h⟩
  · next p hp =>
    obtain ⟨q, hq⟩ := Option.isSome_iff_exists.1 (h p (tapTarget_lt hp))
    rw [hq]
    refine ⟨_, rfl, fun k hk => ?_⟩
    rw [readPixel_writePixel]
    split
    · rfl
    · exact h k hk

theorem diffuseTaps_total {x y : Nat} (err : LinearColor) (taps : List KernelTap) {pix : Store F64}
    (h : AllWritten pix) : ∃ pix', diffuseTaps x y err taps pix = some pix' ∧ AllWritten pix' := by
  induction taps generalizing pix with
  | nil => exact ⟨pix, rfl, h⟩
  | cons t rest ih =>
    obtain ⟨pix1, h1, hw1⟩ := diffuseTap_total (x := x) (y := y) err t h
    obtain ⟨pix2, h2, hw2⟩ := ih hw1
    exact ⟨pix2, by simp only [diffuseTaps, h1, h2], hw2⟩

theorem diffuseTaps_wf {x y : Nat} {err : LinearColor} {taps : List KernelTap} {pix pix' : Store F64}
    (h : diffuseTaps x y err taps pix = some pix') (hw : storeWf pix = true) : storeWf pix' = true := by
  induction taps generalizing pix with
  | nil => simp [diffuseTaps] at h; subst h; exact hw
  | cons t rest ih =>
    simp only [diffuseTaps] at h
    split at h
    · cases h
    · next pix1 h1 =>
      refine ih h ?_
      rcases diffuseTap_cases h1 with ⟨_, rfl⟩ | ⟨p, q, _, _, rfl⟩
      · exact hw
      · exact storeWf_writePixel _ _ _ hw

/-- The cursor's pixel number is that of a pixel of the image. -/
theorem pixelNumber_cursor_lt (c : Cursor) : pixelNumber c.x.val c.y.val < Config.numPixels := by
  have hx := c.x.isLt
  have hy := c.y.isLt
  simp only [pixelNumber, Config.W, Config.H, Config.numPixels] at *
  omega

/-- LATCH is written wherever the packer is about to read it: at every odd column (10_state.md R39). -/
def LatchReady (sc : Scan) : Prop := sc.cursor.x.val % 2 = 1 → sc.latch.unwritten = false

/-- What packing one index does (43_packer.md R211). -/
theorem packIndex_cases {rot : Bool} {i : Fin 7} {sc sc' : Scan} (h : packIndex rot i sc = some sc') :
    (sc.cursor.x.val % 2 = 0 ∧ sc' = { sc with latch := ⟨indexNibble i, false⟩ }) ∨
    (sc.cursor.x.val % 2 = 1 ∧ sc.latch.unwritten = false ∧
      sc' = { sc with
        fb := storeWrite sc.fb (bytePos rot (sc.cursor.x.val - 1) sc.cursor.y.val)
          (packedByte i sc.latch.value) }) := by
  simp only [packIndex] at h
  split at h
  · next h0 => injection h with h; exact .inl ⟨h0, h.symm⟩
  · next h0 =>
    split at h
    · cases h
    · next h1 => injection h with h; exact .inr ⟨by omega, by simpa using h1, h.symm⟩

theorem packIndex_total (rot : Bool) (i : Fin 7) {sc : Scan} (h : LatchReady sc) :
    ∃ sc', packIndex rot i sc = some sc' := by
  by_cases h0 : sc.cursor.x.val % 2 = 0
  · exact ⟨_, by simp only [packIndex, h0, if_true]; rfl⟩
  · have h1 := h (by omega)
    exact ⟨_, by simp only [packIndex, h0, if_false, h1, Bool.false_eq_true]; rfl⟩

/-- One pixel of the scan, in full: the pixel read, the diffusion done, the index packed (42_ditherer.md R185 to
R189). -/
theorem scanPixel_cases {P : Params} {pal : Palette} {rot : Bool} {sc sc' : Scan}
    (h : scanPixel P pal rot sc = some sc') :
    ∃ p pix, readPixel sc.pix (pixelNumber sc.cursor.x.val sc.cursor.y.val) = some p ∧
      diffuseTaps sc.cursor.x.val sc.cursor.y.val (residual p (paletteEntry pal (nearest P pal p).1)) kernelTaps sc.pix
        = some pix ∧
      packIndex rot (nearest P pal p).1 { sc with pix := pix } = some sc' := by
  simp only [scanPixel] at h
  split at h
  · cases h
  · next p hp =>
    split at h
    · cases h
    · next pix hpix => exact ⟨p, pix, hp, hpix, h⟩

/-- One pixel leaves the cursor and PIX's shape, and makes LATCH ready for the next column (42_ditherer.md R189). -/
theorem scanPixel_total (P : Params) (pal : Palette) (rot : Bool) {sc : Scan} (hw : AllWritten sc.pix)
    (hl : LatchReady sc) :
    ∃ sc', scanPixel P pal rot sc = some sc' ∧ AllWritten sc'.pix ∧ sc'.cursor = sc.cursor ∧
      (sc.cursor.x.val % 2 = 0 → sc'.latch.unwritten = false) := by
  obtain ⟨p, hp⟩ := Option.isSome_iff_exists.1 (hw _ (pixelNumber_cursor_lt sc.cursor))
  obtain ⟨pix, hpix, hpw⟩ := diffuseTaps_total (x := sc.cursor.x.val) (y := sc.cursor.y.val)
    (residual p (paletteEntry pal (nearest P pal p).1)) kernelTaps hw
  obtain ⟨sc', hsc'⟩ := packIndex_total rot (nearest P pal p).1 (sc := { sc with pix := pix }) hl
  refine ⟨sc', by simp only [scanPixel, hp, hpix, hsc'], ?_⟩
  rcases packIndex_cases hsc' with ⟨h0, rfl⟩ | ⟨h0, _, rfl⟩
  · exact ⟨hpw, rfl, fun _ => rfl⟩
  · exact ⟨hpw, rfl, fun h => by simp only at h0; omega⟩

/-- Where the next cursor stands: the next pixel number, or still the last pixel (10_state.md R38). -/
theorem cursorNext_cases (c : Cursor) :
    ((cursorNext c).x.val = c.x.val + 1 ∧ (cursorNext c).y = c.y) ∨
    (c.x.val = 599 ∧ (cursorNext c).x.val = 0 ∧ (cursorNext c).y.val = c.y.val + 1) ∨
    (c.x.val = 599 ∧ c.y.val = 447 ∧ cursorNext c = c) := by
  have hx := c.x.isLt
  have hy := c.y.isLt
  simp only [Config.W, Config.H] at hx hy
  simp only [cursorNext, Config.W, Config.H]
  split
  · exact .inl ⟨rfl, rfl⟩
  · next h1 =>
    split
    · exact .inr (.inl ⟨by omega, rfl, rfl⟩)
    · exact .inr (.inr ⟨by omega, by omega, rfl⟩)

/-- The column after this one is odd only where this one is even, or where the cursor stays. -/
theorem latchReady_next {sc sc' : Scan} (hl : LatchReady sc)
    (hsame : sc.cursor.x.val % 2 = 1 → sc'.latch = sc.latch)
    (hev : sc.cursor.x.val % 2 = 0 → sc'.latch.unwritten = false) :
    LatchReady { sc' with cursor := cursorNext sc'.cursor } := by
  intro hodd
  simp only at hodd ⊢
  by_cases h0 : sc.cursor.x.val % 2 = 0
  · exact hev h0
  · rw [hsame (by omega)]
    exact hl (by omega)

/-- The scan of any number of pixels completes when PIX is written and LATCH is ready (42_ditherer.md R184). -/
theorem scanPixels_total (P : Params) (pal : Palette) (rot : Bool) (n : Nat) {sc : Scan} (hw : AllWritten sc.pix)
    (hl : LatchReady sc) :
    ∃ sc', scanPixels P pal rot n sc = some sc' ∧ AllWritten sc'.pix := by
  induction n generalizing sc with
  | zero => exact ⟨sc, rfl, hw⟩
  | succ n ih =>
    obtain ⟨sc1, h1, hw1, hc1, he1⟩ := scanPixel_total P pal rot hw hl
    have hodd : sc.cursor.x.val % 2 = 1 → sc1.latch = sc.latch := by
      intro ho
      obtain ⟨p, pix, _, _, hp⟩ := scanPixel_cases h1
      rcases packIndex_cases hp with ⟨h0, _⟩ | ⟨_, _, rfl⟩
      · simp only at h0; omega
      · rfl
    obtain ⟨sc2, h2, hw2⟩ :=
      ih (sc := { sc1 with cursor := cursorNext sc1.cursor }) hw1 (latchReady_next hl hodd he1)
    exact ⟨sc2, by simp only [scanPixels, h1, h2], hw2⟩

/-- The scan keeps the canonical forms of PIX and of the frame image. -/
theorem scanPixels_wf {P : Params} {pal : Palette} {rot : Bool} {n : Nat} {sc sc' : Scan}
    (h : scanPixels P pal rot n sc = some sc') (hp : storeWf sc.pix = true) (hf : storeWf sc.fb = true) :
    storeWf sc'.pix = true ∧ storeWf sc'.fb = true := by
  induction n generalizing sc with
  | zero => simp [scanPixels] at h; subst h; exact ⟨hp, hf⟩
  | succ n ih =>
    simp only [scanPixels] at h
    split at h
    · cases h
    · next sc1 h1 =>
      obtain ⟨p, pix, _, hd, hpk⟩ := scanPixel_cases h1
      have hpix := diffuseTaps_wf hd hp
      rcases packIndex_cases hpk with ⟨_, rfl⟩ | ⟨_, _, rfl⟩
      · exact ih h hpix hf
      · exact ih h hpix (storeWf_storeWrite _ _ _ hf)

/-- One pixel keeps the cursor (42_ditherer.md R184: it moves between pixels). -/
theorem scanPixel_cursor {P : Params} {pal : Palette} {rot : Bool} {sc sc' : Scan}
    (h : scanPixel P pal rot sc = some sc') : sc'.cursor = sc.cursor := by
  obtain ⟨p, pix, _, _, hpk⟩ := scanPixel_cases h
  rcases packIndex_cases hpk with ⟨_, rfl⟩ | ⟨_, _, rfl⟩ <;> rfl

/-- A scan of `m + n` pixels is one of `m` and then one of `n`. -/
theorem scanPixels_add (P : Params) (pal : Palette) (rot : Bool) (m n : Nat) (sc : Scan) :
    scanPixels P pal rot (m + n) sc = (scanPixels P pal rot m sc).bind (scanPixels P pal rot n) := by
  induction m generalizing sc with
  | zero => rw [Nat.zero_add]; rfl
  | succ m ih =>
    rw [Nat.succ_add]
    simp only [scanPixels]
    cases scanPixel P pal rot sc with
    | none => rfl
    | some sc1 => exact ih _

/-- Below the last pixel the cursor's pixel number grows by one (10_state.md R38). -/
theorem pixelNumber_cursorNext {c : Cursor} (h : pixelNumber c.x.val c.y.val + 1 < Config.numPixels) :
    pixelNumber (cursorNext c).x.val (cursorNext c).y.val = pixelNumber c.x.val c.y.val + 1 := by
  simp only [pixelNumber, Config.W, Config.numPixels] at *
  rcases cursorNext_cases c with ⟨h1, h2⟩ | ⟨h1, h2, h3⟩ | ⟨h1, h2, _⟩
  · rw [h1, h2]; omega
  · rw [h2, h3]; omega
  · omega

/-- After `n` pixels the cursor stands `n` pixels on, as long as the image goes on (42_ditherer.md R184). -/
theorem scanPixels_cursor {P : Params} {pal : Palette} {rot : Bool} {n : Nat} {sc sc' : Scan}
    (h : scanPixels P pal rot n sc = some sc')
    (hn : pixelNumber sc.cursor.x.val sc.cursor.y.val + n < Config.numPixels) :
    pixelNumber sc'.cursor.x.val sc'.cursor.y.val = pixelNumber sc.cursor.x.val sc.cursor.y.val + n := by
  induction n generalizing sc with
  | zero => simp only [scanPixels] at h; injection h with h; subst h; rw [Nat.add_zero]
  | succ n ih =>
    simp only [scanPixels] at h
    split at h
    · cases h
    · next sc1 h1 =>
      have hc := scanPixel_cursor h1
      have hnext := pixelNumber_cursorNext (c := sc1.cursor)
        (by rw [hc]; exact Nat.lt_of_le_of_lt (Nat.add_le_add_left (Nat.succ_le_succ (Nat.zero_le n)) _) hn)
      rw [hc] at hnext
      have hstep := ih h (by simp only [hc, hnext, Nat.add_assoc, Nat.add_comm 1 n]; exact hn)
      simp only [hc, hnext, Nat.add_assoc, Nat.add_comm 1 n] at hstep
      exact hstep

/-- A pixel number gives back its column and row. -/
theorem pixelNumber_inj {x y x' y' : Nat} (hx : x < Config.W) (hx' : x' < Config.W)
    (h : pixelNumber x y = pixelNumber x' y') : x = x' ∧ y = y' := by
  simp only [pixelNumber, Config.W] at *
  omega

end Sys2Proof.Machine
end

