-- ==== Sys2Proof/Laws/White.lean ====
section
/-! SUPPORT. The white image under a palette whose entry 1 is exact white: 10_state.md R32 derives that the white-image
property then holds. -/

namespace Sys2Proof.Machine

/-- A value that compares equal to 1.0 is 1.0. -/
theorem eq_one_of_feq {v : F64} (h : feq v (fnat 1) = true) : v = fnat 1 := by
  have hk : fkey (fnat 1) = 4607182418800017408 := by decide +kernel
  have h1 : fnat 1 = 4607182418800017408#64 := by decide +kernel
  simp only [feq, Bool.and_eq_true, decide_eq_true_eq, hk] at h
  have h2 := h.2
  have hlt := v.isLt
  have hm : v.msb = fsign v := BitVec.msb_eq_getLsbD_last v
  rw [BitVec.msb_eq_decide] at hm
  cases hs : fsign v
  · simp only [fkey, hs, if_false, Bool.false_eq_true] at h2
    rw [hs, decide_eq_false_iff_not] at hm
    rw [h1]
    apply BitVec.eq_of_toNat_eq
    simp only [BitVec.toNat_ofNat]
    omega
  · simp only [fkey, hs, if_true] at h2
    omega

/-- `unit8(255)` is exactly 1.0 (40_colormath.md R113). -/
theorem unit8_white : unit8 255 = fnat 1 := by decide +kernel

/-- `gammaLinear(1.0)` is exactly 1.0 when `F_pow(1.0, 2.4) == 1.0` (40_colormath.md R118(a), 00_scope.md R12(b)). -/
theorem gammaLinear_one {E : Elem} (h : feq (E.pow (fnat 1) (flit 24 1)) (fnat 1) = true) :
    gammaLinear E (fnat 1) = fnat 1 := by
  have hg : fgt (fnat 1) (flit 4045 5) = true := by decide +kernel
  have hd : fdiv (fadd (fnat 1) (flit 55 3)) (flit 1055 3) = fnat 1 := by decide +kernel
  simp only [gammaLinear, hg, if_true, hd]
  exact eq_one_of_feq h

/-- The exact white LinearColor. -/
def whiteColor : LinearColor := ⟨fnat 1, fnat 1, fnat 1⟩

theorem residual_white : residual whiteColor whiteColor = ⟨fnat 0, fnat 0, fnat 0⟩ := by decide +kernel

theorem diffuse_white : ∀ t ∈ kernelTaps, diffuseChannel (fnat 1) (fnat 0) t.w = fnat 1 := by
  intro t ht
  simp only [kernelTaps, List.mem_cons, List.not_mem_nil, or_false] at ht
  rcases ht with rfl | rfl | rfl | rfl <;> decide +kernel

/-- Every pixel of PIX is exact white. -/
def AllWhite (pix : Store F64) : Prop := ∀ q, q < Config.numPixels → readPixel pix q = some whiteColor

theorem AllWhite.allWritten {pix : Store F64} (h : AllWhite pix) : AllWritten pix := fun q hq => by rw [h q hq]; rfl

theorem diffuseTaps_white {x y : Nat} (taps : List KernelTap)
    (ht : ∀ t ∈ taps, diffuseChannel (fnat 1) (fnat 0) t.w = fnat 1) {pix pix' : Store F64} (hw : AllWhite pix)
    (h : diffuseTaps x y ⟨fnat 0, fnat 0, fnat 0⟩ taps pix = some pix') : AllWhite pix' := by
  induction taps generalizing pix with
  | nil => simp [diffuseTaps] at h; subst h; exact hw
  | cons t rest ih =>
    simp only [diffuseTaps] at h
    split at h
    · cases h
    · next pix1 h1 =>
      refine ih (fun t' ht' => ht t' (List.mem_cons_of_mem _ ht')) ?_ h
      rcases diffuseTap_cases h1 with ⟨_, rfl⟩ | ⟨p, q, hp, hq, rfl⟩
      · exact hw
      · have hq' := hw p (tapTarget_lt hp)
        rw [hq] at hq'
        injection hq' with hq'
        subst hq'
        intro k hk
        rw [readPixel_writePixel]
        split
        · simp only [whiteColor, ht t (List.mem_cons_self)]
        · exact hw k hk

/-- The scan of a white PIX under a palette whose entry 1 is exact white and nearest to it: PIX stays white and LATCH
ready. -/
theorem scanPixels_white {P : Params} {pal : Palette} (hpal : pal.white = whiteColor)
    (hnear : (nearest P pal whiteColor).1 = 1) (rot : Bool) (n : Nat) {sc : Scan} (hw : AllWhite sc.pix)
    (hl : LatchReady sc) :
    ∃ sc', scanPixels P pal rot n sc = some sc' ∧ AllWhite sc'.pix := by
  induction n generalizing sc with
  | zero => exact ⟨sc, rfl, hw⟩
  | succ n ih =>
    obtain ⟨sc1, h1, _, hc1, he1⟩ := scanPixel_total P pal rot hw.allWritten hl
    obtain ⟨p, pix, hp, hd, hpk⟩ := scanPixel_cases h1
    rw [hw _ (pixelNumber_cursor_lt sc.cursor)] at hp
    injection hp with hp
    subst hp
    rw [hnear] at hd hpk
    simp only [paletteEntry, hpal, residual_white] at hd
    have hpix := diffuseTaps_white kernelTaps diffuse_white hw hd
    have hsc : AllWhite sc1.pix ∧ (sc.cursor.x.val % 2 = 1 → sc1.latch = sc.latch) := by
      rcases packIndex_cases hpk with ⟨h0, rfl⟩ | ⟨_, _, rfl⟩
      · exact ⟨hpix, fun ho => by simp only at h0; omega⟩
      · exact ⟨hpix, fun _ => rfl⟩
    obtain ⟨sc2, h2, hw2⟩ :=
      ih (sc := { sc1 with cursor := cursorNext sc1.cursor }) hsc.1 (latchReady_next hl hsc.2 he1)
    exact ⟨sc2, by simp only [scanPixels, h1, h2], hw2⟩

end Sys2Proof.Machine
end

