-- ==== Sys2Proof/Machine/Binding.lean ====
section
/-! DEFINITION. The open parameters the arithmetic takes: the F_* functions with the laws of 00_scope.md R12 and the
palette with the constraints of 10_state.md R32. Both are free values: nothing but these laws can be proved of them. -/

namespace Sys2Proof.Machine

/-- `lo <= v <= hi`, false of a NaN. -/
def fbetween (lo v hi : F64) : Bool := fle lo v && fle v hi

/-- The properties of the elementary functions that 00_scope.md R12 lets a model assume; (a), that each depends on its
arguments alone, is what being a function means. -/
structure ElemLaws (E : Elem) : Prop where
  /-- (b) `F_pow(1.0, y) == 1.0` for every finite `y`. -/
  pow_one : ∀ y, fisFinite y = true → feq (E.pow (fnat 1) y) (fnat 1) = true
  /-- (c) `F_pow(x, y)` is finite and positive for finite `x > 0` and finite `y` whenever the exact result lies in the
  binary64 normal range. -/
  pow_normal : ∀ x y, fisFinite x = true → fisFinite y = true → flt (fnat 0) x = true →
    (2 : ℝ) ^ (-1022 : ℤ) ≤ ((fvalue x : ℚ) : ℝ) ^ ((fvalue y : ℚ) : ℝ) →
    ((fvalue x : ℚ) : ℝ) ^ ((fvalue y : ℚ) : ℝ) ≤ (2 - 2 ^ (-52 : ℤ)) * (2 : ℝ) ^ (1023 : ℤ) →
    fisFinite (E.pow x y) = true ∧ flt (fnat 0) (E.pow x y) = true
  /-- (d) `F_atan2(+0.0, +0.0) == +0.0`. -/
  atan2_zero : feq (E.atan2 (fnat 0) (fnat 0)) (fnat 0) = true
  /-- (d) `F_atan2(y, x)` lies in [-π, π] for finite arguments; PI is the largest binary64 value not above π. -/
  atan2_range : ∀ y x, fisFinite y = true → fisFinite x = true → fbetween (fneg fpi) (E.atan2 y x) fpi = true
  /-- (e) `F_sin(-r) == -F_sin(r)`. Of a NaN nothing compares equal, so this is said of finite `r`; and `-r` is a number,
  so it is said of each of its encodings: -0 is either zero, which gives 41_distance.md R150(b) its F_sin(0) = 0
  (`sin_zero_of_laws`). DEDUCED (log 4). -/
  sin_odd : ∀ r n, fisFinite r = true → feq n (fneg r) = true → feq (E.sin n) (fneg (E.sin r)) = true
  /-- (f) `F_sin` lies in [-1, 1] for finite arguments. -/
  sin_range : ∀ r, fisFinite r = true → fbetween (fneg (fnat 1)) (E.sin r) (fnat 1) = true
  /-- (f) `F_cos` lies in [-1, 1] for finite arguments. -/
  cos_range : ∀ r, fisFinite r = true → fbetween (fneg (fnat 1)) (E.cos r) (fnat 1) = true
  /-- (f) `F_exp(v)` lies in [0, +inf) for finite arguments. -/
  exp_range : ∀ v, fisFinite v = true → fle (fnat 0) (E.exp v) = true ∧ fisFinite (E.exp v) = true
  /-- (g) `F_pow(x, y)` lies in [0, 1] for `0 <= x <= 1` and finite `y > 0`. -/
  pow_unit : ∀ x y, fbetween (fnat 0) x (fnat 1) = true → fisFinite y = true → flt (fnat 0) y = true →
    fbetween (fnat 0) (E.pow x y) (fnat 1) = true

/-- 41_distance.md R150(b): F_sin(0) = 0, for every lawful binding: 0 is its own negative, so F_sin(0) == -F_sin(0). -/
theorem sin_zero_of_laws {E : Elem} (h : ElemLaws E) : feq (E.sin (fnat 0)) (fnat 0) = true :=
  feq_zero_of_feq_neg (h.sin_odd (fnat 0) (fnat 0) (by decide) (by decide))

/-- A channel of a palette entry: finite and in [0,1] (10_state.md R32(a)). -/
def unitChannel (v : F64) : Bool := fisFinite v && fbetween (fnat 0) v (fnat 1)

/-- All three channels of a colour are in [0,1] (10_state.md R32(a)). -/
def unitColor (c : LinearColor) : Bool := unitChannel c.r && unitChannel c.g && unitChannel c.b

/-- 10_state.md R32(a): every channel of every entry is finite and in [0,1]. -/
def paletteInUnit (pal : Palette) : Bool :=
  unitColor pal.black && unitColor pal.white && unitColor pal.green && unitColor pal.blue && unitColor pal.red &&
    unitColor pal.yellow && unitColor pal.orange

/-- The engine's work area at the start of a scan of the given PIX, nothing packed yet. -/
def scanStart (pix : Store F64) : Scan := { cursor := cursorStart, latch := ⟨0, true⟩, pix := pix, fb := [] }

/-- 10_state.md R32(b), the white-image property: over a uniform white image index 1 is chosen at the first pixel, and
the residual error each pixel leaves keeps index 1 chosen at every later one. -/
def WhiteKept (P : Params) (pal : Palette) : Prop :=
  ∃ pix, loadPixels P.elem (fun _ => some 255) Config.numPixels 0 [] = some pix ∧
    ∀ n, n < Config.numPixels →
      ∃ sc, scanPixels P pal true n (scanStart pix) = some sc ∧ chosenIndex P pal sc = some 1

/-- What the spec leaves open of the arithmetic: the elementary functions and the palette (00_scope.md R8). -/
structure Binding where
  /-- The F_* functions (D3). -/
  elem : Elem
  /-- PALETTE (D9). -/
  palette : Palette
deriving Inhabited

/-- A binding's arguments of the arithmetic units, with the default `M_XYZ` (00_scope.md R8). -/
def bindingParams (b : Binding) : Params := { elem := b.elem, mxyz := defaultMatrix }

/-- A binding that the spec admits: 00_scope.md R12 and 10_state.md R32. -/
structure BindingLaws (b : Binding) : Prop where
  /-- The properties of the elementary functions. -/
  elem : ElemLaws b.elem
  /-- R32(a). -/
  inUnit : paletteInUnit b.palette = true
  /-- R32(b). -/
  white : WhiteKept (bindingParams b) b.palette

/-- A binding that shows the laws can be met together: constant functions, entry 1 white, every other entry black. It
is a witness and nothing else: the machine's binding is not this one. -/
def witnessBinding : Binding :=
  { elem :=
      { pow := fun _ _ => fnat 1, atan2 := fun _ _ => fnat 0, sin := fun _ => fnat 0, cos := fun _ => fnat 1,
        exp := fun _ => fnat 1 }
    palette :=
      { black := ⟨0, 0, 0⟩, white := whiteColor, green := ⟨0, 0, 0⟩, blue := ⟨0, 0, 0⟩, red := ⟨0, 0, 0⟩,
        yellow := ⟨0, 0, 0⟩, orange := ⟨0, 0, 0⟩ } }

theorem witness_elemLaws : ElemLaws witnessBinding.elem where
  pow_one _ _ := (by decide +kernel : feq (fnat 1) (fnat 1) = true)
  pow_normal _ _ _ _ _ _ _ := (by decide +kernel : fisFinite (fnat 1) = true ∧ flt (fnat 0) (fnat 1) = true)
  atan2_zero := by decide +kernel
  atan2_range _ _ _ _ := (by decide +kernel : fbetween (fneg fpi) (fnat 0) fpi = true)
  sin_odd _ _ _ _ := (by decide +kernel : feq (fnat 0) (fneg (fnat 0)) = true)
  sin_range _ _ := (by decide +kernel : fbetween (fneg (fnat 1)) (fnat 0) (fnat 1) = true)
  cos_range _ _ := (by decide +kernel : fbetween (fneg (fnat 1)) (fnat 1) (fnat 1) = true)
  exp_range _ _ := (by decide +kernel : fle (fnat 0) (fnat 1) = true ∧ fisFinite (fnat 1) = true)
  pow_unit _ _ _ _ _ := (by decide +kernel : fbetween (fnat 0) (fnat 1) (fnat 1) = true)

theorem witness_nearest : (nearest (bindingParams witnessBinding) witnessBinding.palette whiteColor).1 = 1 := by
  decide +kernel

/-- 10_state.md R32 as it derives (b): exact white at entry 1, nearest to itself, keeps a white image white. -/
theorem whiteKept_of_exact {P : Params} {pal : Palette}
    (hpow : feq (P.elem.pow (fnat 1) (flit 24 1)) (fnat 1) = true)
    (hpal : pal.white = whiteColor) (hnear : (nearest P pal whiteColor).1 = 1) : WhiteKept P pal := by
  obtain ⟨pix, hl, hin, _⟩ := loadPixels_spec P.elem (fun _ => some 255) Config.numPixels 0 []
    (fun _ _ _ => ⟨rfl, rfl, rfl⟩)
  have hch : loadChannel P.elem 255 = fnat 1 := by rw [loadChannel, unit8_white, gammaLinear_one hpow]
  have hw : AllWhite pix := fun q hq => by
    rw [hin q (Nat.zero_le q) (by omega) 255 255 255 rfl rfl rfl, hch]; rfl
  refine ⟨pix, hl, fun n _ => ?_⟩
  obtain ⟨sc, hs, hws⟩ := scanPixels_white hpal hnear true n (sc := scanStart pix) hw
    (fun h => by simp [scanStart, cursorStart] at h)
  refine ⟨sc, hs, ?_⟩
  simp only [chosenIndex, hws _ (pixelNumber_cursor_lt sc.cursor), hnear]

theorem witness_laws : BindingLaws witnessBinding where
  elem := witness_elemLaws
  inUnit := by decide +kernel
  white := whiteKept_of_exact (by decide +kernel) rfl witness_nearest

/-- The machine's binding of the open parameters: any one that the spec admits, and nothing says which (logs 4 and 5).
FREE VALUE. -/
def binding : { b : Binding // BindingLaws b } :=
  @Config.constrained { b : Binding // BindingLaws b } ⟨⟨witnessBinding, witness_laws⟩⟩

/-- The F_* functions of this hardware: open but for 00_scope.md R12. -/
def elemFns : Elem := binding.val.elem

/-- PALETTE of this hardware: open but for 10_state.md R32. -/
def devicePalette : Palette := binding.val.palette

/-- The arguments of the arithmetic units of this hardware (00_scope.md R8). -/
def params : Params := bindingParams binding.val

end Sys2Proof.Machine
end

