-- ==== Sys2Proof/Machine/State.lean ====
section
/-! DEFINITION. The state of the block as plain data (10_state.md), the reasons a step can stop, and the state after
reset (10_state.md R42, 70_reset_and_hazards.md R290). -/

namespace Sys2Proof.Machine

/-- The model faults (60_exceptions.md R266). -/
inductive Fault where
  /-- `READ_UNWRITTEN`: a cell whose unwritten mark is set was read. Raised, as the outcome of the step, by a host read
  of an unwritten SRC or FRAME byte and by the load of a CONVERT that meets one; and recorded in `State.faults`, the
  machine going on, by a host or engine read of an unwritten register (10_state.md R41, log 1). Safe. -/
  | readUnwritten
  /-- `BAD_ACCESS`: a host access to a reserved offset, with a width the target does not take, misaligned, or crossing a
  window's end. Raised, as the outcome of the step, by host reads and writes (44_control.md R247); and recorded in
  `State.faults`, the access taking its effect, by an access to PAL_6_B at the reserved offset 0x120 (log 13). Safe. -/
  | badAccess
  /-- `HOST_HAZARD`: a host write to SRC, SRC_W, SRC_H, TIMESTAMP, OPA_* or OPB_* while BUSY = 1. Raised by host writes
  (70_reset_and_hazards.md R293). Safe. -/
  | hostHazard
deriving DecidableEq, Repr

/-- What the model has no meaning for. -/
inductive Refusal where
  /-- An instruction not modelled yet, by its mnemonic. No arm raises it. Safe. -/
  | notModelled (mnemonic : String)
  /-- A host transaction at an offset of 0x400000 or above, which is no block transaction (20_memory.md R61, ID-12).
  Raised by host reads and writes. Safe. -/
  | outsideBlock
deriving DecidableEq, Repr

/-- STATUS.ERR codes; 4..255 are never produced (60_exceptions.md R260). -/
inductive ErrCode where
  /-- 0: no error. -/
  | none
  /-- 1: a command word outside the opcode map. -/
  | illegalCmd
  /-- 2: SRC_W ≠ 600 or SRC_H ≠ 448. -/
  | dimMismatch
  /-- 3: a NaN or an infinity in an operand register. -/
  | nonfiniteOperand
deriving DecidableEq, Repr

/-- The fields of STATUS (10_state.md R23). -/
structure Status where
  /-- [0]: an accepted command executes. -/
  busy : Bool
  /-- [1]: a command has completed or been rejected. -/
  done : Bool
  /-- [2]: a CMD write arrived while BUSY = 1. -/
  ovr : Bool
  /-- [15:8]: the error code of the last completed or rejected command. -/
  err : ErrCode
deriving DecidableEq, Repr

/-- A register with its unwritten mark (10_state.md R41). -/
structure DataReg where
  /-- The 64 bits it holds. -/
  value : Word
  /-- No write since reset. -/
  unwritten : Bool
deriving DecidableEq, Repr

/-- The engine's phase (10_state.md R36). -/
inductive Phase where
  /-- The engine takes no step. -/
  | idle
  /-- The engine executes the active command. -/
  | run
deriving DecidableEq, Repr

/-- The two agents (00_scope.md R18). -/
inductive Agent where
  /-- The bus master that programs the block. -/
  | host
  /-- The block's execution unit. -/
  | engine
deriving DecidableEq, Repr

/-- What the outside world does to the block: the host's transactions in program order (30_encoding.md R97, R99), and among
them, by the model's choice of log 23, the platform's reset (70_reset_and_hazards.md R290). -/
inductive HostOp where
  /-- `HRD(a, n)`: read `n` bytes at offset `a`. -/
  | read (a n : Nat)
  /-- `HWR(a, n, v)`: write the `n` low bytes of `v` at offset `a`. -/
  | write (a n : Nat) (v : Word)
  /-- `poll`: read STATUS until BUSY = 0. -/
  | poll
  /-- The reset input. The platform asserts it (R290), which is neither agent of R18, and the spec orders it against
  nothing: that it is an entry of this queue, taken in program order as one step on a host turn, so never inside a poll
  that still repeats, is the model's. DESIGN CHOICE (log 23). -/
  | reset
deriving DecidableEq, Repr

/-- The state: everything 10_state.md gives the block, then the model's own fields for the two agents. -/
structure State where
  /-- STATUS (R23). -/
  status : Status
  /-- CONFIG (R24). -/
  config : Word
  /-- SRC_W (R25). -/
  srcW : Word
  /-- SRC_H (R25). -/
  srcH : Word
  /-- TIMESTAMP (R26). -/
  timestamp : Word
  /-- OPA_R (R27). -/
  opaR : DataReg
  /-- OPA_G (R27). -/
  opaG : DataReg
  /-- OPA_B (R27). -/
  opaB : DataReg
  /-- OPB_R (R27). -/
  opbR : DataReg
  /-- OPB_G (R27). -/
  opbG : DataReg
  /-- OPB_B (R27). -/
  opbB : DataReg
  /-- RES0 (R28). -/
  res0 : DataReg
  /-- RES1 (R28). -/
  res1 : DataReg
  /-- RES2 (R28). -/
  res2 : DataReg
  /-- PAL_i_c (R29, R31). -/
  palette : Palette
  /-- The SRC and FRAME windows: bytes by block offset, unwritten ones not listed (R33, R34, R41). -/
  mem : List Host.Cell
  /-- The engine's phase (R36). -/
  phase : Phase
  /-- The command being executed; it has no meaning in IDLE (R37). -/
  active : Option Instr
  /-- The cursor, LATCH, PIX and the frame image (R35, R38, R39; 42_ditherer.md R190). -/
  scan : Scan
  /-- The set of recorded model faults (R41); a fault that ends the step is carried by the outcome (log 16). -/
  faults : List Fault
  /-- The model's own: engine steps left until the completion step of the active command (44_control.md R248). -/
  latLeft : Nat
  /-- The model's own: the counter of the free values drawn so far (log 7). -/
  draws : Nat
  /-- The model's own: whose step is next (20_memory.md R70, log 9). -/
  turn : Agent
  /-- The model's own: whose the steps after it are; once the list is exhausted free values say (log 9). -/
  schedule : List Agent
  /-- The model's own: the turns the host still has before the engine's next one, while a command runs and the schedule is
  exhausted (70_reset_and_hazards.md R296, log 9). -/
  hostTurns : Nat
  /-- The host's remaining transactions, in program order (44_control.md R240, log 10). -/
  host : List HostOp
  /-- The values the host's reads returned, zero-extended, the latest first (30_encoding.md R97, log 10). -/
  replies : List Word
deriving DecidableEq, Repr

/-- A register no write has reached: its mark is set and it holds zero. DESIGN CHOICE (log 2). -/
def unwrittenReg : DataReg := { value := 0, unwritten := true }

/-- STATUS after reset: 0 (10_state.md R42). -/
def statusReset : Status := { busy := false, done := false, ovr := false, err := .none }

/-- CONFIG after reset: `zext_64(ROT180)` (10_state.md R24, R42). -/
def configReset : Word := if Config.rot180 then 1 else 0

/-- The machine right after reset (10_state.md R42). The cursor, the counters, the turn and the host's queue are the
model's choices (logs 3, 7, 8, 9, 10); the value under an unwritten mark is log 2. -/
def State.reset : State where
  status := statusReset
  config := configReset
  srcW := 0
  srcH := 0
  timestamp := 0
  opaR := unwrittenReg
  opaG := unwrittenReg
  opaB := unwrittenReg
  opbR := unwrittenReg
  opbG := unwrittenReg
  opbB := unwrittenReg
  res0 := unwrittenReg
  res1 := unwrittenReg
  res2 := unwrittenReg
  palette := devicePalette
  mem := []
  phase := .idle
  active := none
  scan := scanStart []
  faults := []
  latLeft := 0
  draws := 0
  turn := .host
  schedule := []
  hostTurns := 0
  host := []
  replies := []

end Sys2Proof.Machine
end

