-- ==== Sys2Proof/Machine/Flags.lean ====
section
/-! DEFINITION. STATUS: its word and every change of its fields (10_state.md R23; 44_control.md R241). These bits are the
block's only flags. -/

namespace Sys2Proof.Machine

/-- The code of an error (60_exceptions.md R260). -/
def errBits : ErrCode → BitVec 8
  | .none => 0
  | .illegalCmd => 1
  | .dimMismatch => 2
  | .nonfiniteOperand => 3

/-- STATUS as the host reads it: BUSY [0], DONE [1], OVR [2], ERR [15:8], every other bit 0 (10_state.md R23). -/
def statusWord (st : Status) : Word :=
  (0 : BitVec 48) ++ errBits st.err ++ (0 : BitVec 5) ++ BitVec.ofBool st.ovr ++ BitVec.ofBool st.done ++
    BitVec.ofBool st.busy

/-- Acceptance clears DONE, OVR and ERR (44_control.md R241). -/
def statusCleared (st : Status) : Status := { st with done := false, ovr := false, err := .none }

/-- A rejection, or NOP with no error: DONE 1 and the code, over the cleared fields (44_control.md R241, R242). -/
def statusAnswered (code : ErrCode) (st : Status) : Status :=
  { statusCleared st with done := true, err := code }

/-- An accepted command starts: BUSY 1, over the cleared fields (44_control.md R241). -/
def statusStarted (st : Status) : Status := { statusCleared st with busy := true }

/-- A command completes: BUSY 0, DONE 1, ERR NONE; OVR stays (20_memory.md R71, 42_ditherer.md R190). -/
def statusCompleted (st : Status) : Status := { st with busy := false, done := true, err := .none }

/-- A CMD write while BUSY = 1: OVR 1 and nothing else (60_exceptions.md R264). -/
def statusOverrun (st : Status) : Status := { st with ovr := true }

end Sys2Proof.Machine
end

