-- ==== Sys2Proof/Machine/Operands.lean ====
section
/-! DEFINITION. Where a command's operands come from: fixed registers and the SRC window, never a field of the word
(30_encoding.md R92, R93). -/

namespace Sys2Proof.Machine

/-- The registers of operand colour A, in the order they are read (10_state.md R27; 60_exceptions.md R268). -/
def operandRegsA (s : State) : List DataReg := [s.opaR, s.opaG, s.opaB]

/-- The registers of operand colours A and B, A before B (60_exceptions.md R268). -/
def operandRegsAB (s : State) : List DataReg := [s.opaR, s.opaG, s.opaB, s.opbR, s.opbG, s.opbB]

/-- Operand colour A, `f64(reg[OPA_*])` (30_encoding.md R93). -/
def operandA (s : State) : LinearColor := ⟨s.opaR.value, s.opaG.value, s.opaB.value⟩

/-- Operand colour B, `f64(reg[OPB_*])` (30_encoding.md R93). -/
def operandB (s : State) : LinearColor := ⟨s.opbR.value, s.opbG.value, s.opbB.value⟩

/-- Whether one of the registers is unwritten (60_exceptions.md R268, first check of a direct command). -/
def anyUnwritten (regs : List DataReg) : Bool := regs.any (fun r => r.unwritten)

/-- Whether one of the registers holds a NaN or an infinity (60_exceptions.md R263). -/
def anyNonfinite (regs : List DataReg) : Bool := regs.any (fun r => !fisFinite r.value)

/-- SRC byte `k`, if it has been written (10_state.md R33). -/
def srcByte (s : State) (k : Nat) : Option Byte := storeRead s.mem (Config.SRC_BASE + k)

/-- ROT180 as CONFIG[0] holds it (10_state.md R24). -/
def configRot180 (s : State) : Bool := s.config.getLsbD 0

/-- CONVERT's precondition on the full 64-bit values of SRC_W and SRC_H (42_ditherer.md R181). -/
def dimensionsMatch (s : State) : Bool :=
  s.srcW == BitVec.ofNat 64 Config.W && s.srcH == BitVec.ofNat 64 Config.H

end Sys2Proof.Machine
end

