-- ==== Sys2Proof/Machine/Ops.lean ====
section
/-! DEFINITION. The named operations over the state: recording a fault, the acceptance of a command, the one error
operation `raise Error(code)`, the engine's step and the completion. There are no traps and no return from one
(60_exceptions.md R269, R270): an error writes STATUS and nothing else. -/

namespace Sys2Proof.Machine

/-- The outcomes of this machine's steps. -/
abbrev Result := Host.Outcome State Fault Refusal

/-- A fault is recorded once and never removed (10_state.md R41). -/
def recordFault (f : Fault) (s : State) : State :=
  if f ∈ s.faults then s else { s with faults := f :: s.faults }

/-- A read of the given registers: `READ_UNWRITTEN` is recorded if one of them is unwritten, and the machine goes on with
the values they hold (10_state.md R41, 60_exceptions.md R266, log 1). -/
def noteRead (regs : List DataReg) (s : State) : State :=
  if anyUnwritten regs then recordFault .readUnwritten s else s

/-- `reg[NAME] <- v` on a register with a mark: the first write clears it (10_state.md R41). -/
def writtenReg (v : Word) : DataReg := { value := v, unwritten := false }

/-- A CMD write while BUSY = 1 (60_exceptions.md R264): OVR is set and nothing else changes. -/
def overrun (s : State) : State := { s with status := statusOverrun s.status }

/-- `raise Error(code)`, and NOP's answer with code NONE: STATUS alone changes (00_scope.md R13; 60_exceptions.md R269;
44_control.md R241, R242). -/
def raiseError (code : ErrCode) (s : State) : State := { s with status := statusAnswered code s.status }

/-- An accepted command starts: BUSY 1, phase RUN, `active`, LAT engine steps to go, and a free number of host turns before the
first of them (44_control.md R241, R248; 70_reset_and_hazards.md R296). -/
def startCommand (i : Instr) (s : State) : State :=
  { s with
    status := statusStarted s.status
    phase := .run
    active := some i
    latLeft := Config.latency s.draws
    hostTurns := Config.hostTurns s.draws
    draws := s.draws + 1 }

/-- An unwritten operand decides the outcome of a direct command (60_exceptions.md R268, step 4): DONE, OVR and ERR are
cleared before the check (44_control.md R241), READ_UNWRITTEN is recorded, and the command is neither started nor rejected
with a code. DESIGN CHOICE (log 1). -/
def unwrittenOperand (s : State) : State :=
  recordFault .readUnwritten { s with status := statusCleared s.status }

/-- The acceptance of a command at a CMD write; the first check that applies decides: BUSY, an unwritten register among those
the command reads, its own check, and otherwise the start (44_control.md R241, 60_exceptions.md R268). -/
def acceptCommand (i : Instr) (regs : List DataReg) (error : Option ErrCode) (s : State) : State :=
  if s.status.busy then overrun s
  else if anyUnwritten regs then unwrittenOperand s
  else
    match error with
    | some code => raiseError code s
    | none => startCommand i s

/-- The part of a completion step that every command shares (20_memory.md R71). `active` keeps its value, which has no
meaning in IDLE (10_state.md R37). DESIGN CHOICE (log 19). -/
def completeCommand (s : State) : State :=
  { s with status := statusCompleted s.status, phase := .idle, latLeft := 0 }

/-- A step of the engine before the completion step: nothing that the host can see changes (44_control.md R248). -/
def waitStep (s : State) : State := { s with latLeft := s.latLeft - 1 }

/-- One step of the engine on command `i`: while more than one of its LAT steps is left nothing the host can see changes,
and the last one is the completion step (44_control.md R248). An engine that does not run `i` takes no step (10_state.md
R36). -/
def engineStep (i : Instr) (completion : State → Result) (s : State) : Result :=
  if s.phase = .run ∧ s.active = some i then
    if 1 < s.latLeft then .next (waitStep s) else completion s
  else .next s

/-- The three result words of a direct command (10_state.md R28). -/
structure Results where
  /-- RES0. -/
  r0 : Word
  /-- RES1. -/
  r1 : Word
  /-- RES2. -/
  r2 : Word
deriving DecidableEq, Repr

/-- RES0, RES1 and RES2 written (20_memory.md R68(c)). -/
def writeResults (r : Results) (s : State) : State :=
  { s with res0 := writtenReg r.r0, res1 := writtenReg r.r1, res2 := writtenReg r.r2 }

/-- The check of a direct command: NONFINITE_OPERAND if a register it reads holds a NaN or an infinity (60_exceptions.md
R263). -/
def finiteCheck (regs : List DataReg) : Option ErrCode :=
  if anyNonfinite regs then some .nonfiniteOperand else none

/-- The check of CONVERT (42_ditherer.md R181). -/
def dimensionCheck (s : State) : Option ErrCode := if dimensionsMatch s then none else some .dimMismatch

/-- The completion step of a direct command: its registers are read and its three results appear with BUSY 0
(20_memory.md R71). They hold what they held at acceptance (20_memory.md R70). DEDUCED (log 18). -/
def completeDirect (regs : List DataReg) (r : Results) (s : State) : State :=
  completeCommand (writeResults r (noteRead regs s))

/-- A direct command: on the host's turn its word arrives at CMD, on the engine's turn the engine steps it. `regs` are the
registers it reads, `results` what it computes from them (44_control.md R241, R248). -/
def directCommand (i : Instr) (regs : State → List DataReg) (results : State → Results) (s : State) : Result :=
  match s.turn with
  | .host => .next (acceptCommand i (regs s) (finiteCheck (regs s)) s)
  | .engine => engineStep i (fun s => .next (completeDirect (regs s) (results s) s)) s

/-- Past the schedule's end, whether the next turn is the engine's: a command runs and the host has no turn left before it. In
IDLE the engine has no step (44_control.md R248). -/
def engineNext (s : State) : Bool := s.phase == .run && s.hostTurns == 0

/-- The turn past the schedule's end: while a command runs the host has its remaining turns, then the engine has one and the
number of host turns before its next is drawn afresh. The number is free, so a command may outlast any number of host
transactions (70_reset_and_hazards.md R296), and finite, so every accepted command completes (44_control.md R248).
DESIGN CHOICE (log 9). -/
def freeTurn (s : State) : State :=
  { s with
    turn := if engineNext s then .engine else .host
    hostTurns := if engineNext s then Config.hostTurns s.draws else if s.phase = .run then s.hostTurns - 1 else s.hostTurns
    draws := if engineNext s then s.draws + 1 else s.draws }

/-- The turn passes to the next agent of the schedule, and as free values say once that is exhausted (20_memory.md R70,
44_control.md R248). DESIGN CHOICE (log 9). -/
def nextTurn (s : State) : State :=
  match s.schedule with
  | a :: rest => { s with turn := a, schedule := rest }
  | [] => freeTurn s

/-- The turn passes after a step that answers a next state. -/
def passTurn : Result → Result
  | .next s => .next (nextTurn s)
  | .fault f => .fault f
  | .refused r => .refused r

end Sys2Proof.Machine
end

