-- ==== Sys2Proof/Machine/ColorCommands.lean ====
section
/-! DEFINITION. The direct commands of the ColorMath unit: GAMMA and LAB (40_colormath.md R119, R120). -/

namespace Sys2Proof.Machine

/-- The results of GAMMA: `gammaLinear` of each channel of operand A, not clamped (40_colormath.md R119). -/
def gammaResults (s : State) : Results :=
  let a := operandA s
  { r0 := gammaLinear params.elem a.r, r1 := gammaLinear params.elem a.g, r2 := gammaLinear params.elem a.b }

/-- GAMMA (40_colormath.md R119). -/
def execGamma (s : State) : Result := directCommand .gamma operandRegsA gammaResults s

/-- The results of LAB: L, a and b of operand A (40_colormath.md R120). -/
def labResults (s : State) : Results :=
  let c := rgbToLab params (operandA s)
  { r0 := c.L, r1 := c.a, r2 := c.b }

/-- LAB (40_colormath.md R120). -/
def execLab (s : State) : Result := directCommand .lab operandRegsA labResults s

end Sys2Proof.Machine
end

