-- ==== Sys2Proof/Machine/Control.lean ====
section
/-! DEFINITION. The control unit: NOP (44_control.md R242). -/

namespace Sys2Proof.Machine

/-- NOP: accepted when BUSY = 0, it answers DONE 1, ERR NONE and OVR 0; while BUSY = 1 it sets OVR like any command word.
The engine takes no step for it (44_control.md R241, R242). -/
def execNop (s : State) : Result :=
  match s.turn with
  | .host => .next (if s.status.busy then overrun s else raiseError .none s)
  | .engine => .next s

end Sys2Proof.Machine
end

