-- ==== Sys2Proof/Machine/Convert.lean ====
section
/-! DEFINITION. CONVERT: the SRC image to FRAME (42_ditherer.md R191). The engine may do the whole command in its
completion step, because no state between is visible to the host (42_ditherer.md R191). DEDUCED (log 15). -/

namespace Sys2Proof.Machine

/-- What CONVERT publishes once its scan has packed every index: the header, all of FRAME at once, and the completion
(42_ditherer.md R190). RES0..RES2 are unchanged. -/
def finishConvert (sc : Scan) (s : State) : State :=
  let fb := storeWriteAll sc.fb 0 (headerBytes s.timestamp)
  completeCommand { s with scan := { sc with fb := fb }, mem := storeCopy Config.FRAME_BASE fb s.mem }

/-- The completion step of CONVERT: load, scan, publish; an unwritten R, G or B byte of SRC is the model fault
`READ_UNWRITTEN` (42_ditherer.md R183 to R190). -/
def completeConvert (s : State) : Result :=
  match convertScan params s.palette (configRot180 s) (srcByte s) s.scan with
  | some sc => .next (finishConvert sc s)
  | none => .fault .readUnwritten

/-- CONVERT (42_ditherer.md R191): its acceptance reads SRC_W and SRC_H and no SRC byte (R181, R182). -/
def execConvert (s : State) : Result :=
  match s.turn with
  | .host => .next (acceptCommand .convert [] (dimensionCheck s) s)
  | .engine => engineStep .convert completeConvert s

end Sys2Proof.Machine
end

