-- ==== Sys2Proof/Machine/DistanceCommands.lean ====
section
/-! DEFINITION. The direct commands of the PerceptualDistance unit: DE2000 and NEAREST (41_distance.md R153, R154). -/

namespace Sys2Proof.Machine

/-- The results of DE2000: the distance of operands A and B, then two zeros (41_distance.md R153). -/
def de2000Results (s : State) : Results :=
  { r0 := colorDifference params (operandA s) (operandB s), r1 := 0, r2 := 0 }

/-- DE2000 (41_distance.md R153). -/
def execDe2000 (s : State) : Result := directCommand .de2000 operandRegsAB de2000Results s

/-- The results of NEAREST: the index as an integer 0..6, its distance, then zero (41_distance.md R154). -/
def nearestResults (s : State) : Results :=
  let n := nearest params s.palette (operandA s)
  { r0 := BitVec.ofNat 64 n.1.val, r1 := n.2, r2 := 0 }

/-- NEAREST (41_distance.md R154). -/
def execNearest (s : State) : Result := directCommand .nearest operandRegsA nearestResults s

end Sys2Proof.Machine
end

