-- ==== Sys2Proof/Machine/Dispatch.lean ====
section
/-! DEFINITION. One arm per command (30_encoding.md R92). On the host's turn `exec i` is what the block does when the
word of `i` arrives at CMD; on the engine's turn it is one engine step of `i`. -/

namespace Sys2Proof.Machine

def exec (i : Instr) (s : State) : Host.Outcome State Fault Refusal :=
  match i with
  | .nop => Sys2Proof.Machine.execNop s
  | .convert => Sys2Proof.Machine.execConvert s
  | .gamma => Sys2Proof.Machine.execGamma s
  | .lab => Sys2Proof.Machine.execLab s
  | .de2000 => Sys2Proof.Machine.execDe2000 s
  | .nearest => Sys2Proof.Machine.execNearest s

end Sys2Proof.Machine
end

