-- ==== Sys2Proof/Machine/RegisterFile.lean ====
section
/-! DEFINITION. The host-visible register file: its map, its reads and its writes (10_state.md R21 to R30; 44_control.md
R243, R244). -/

namespace Sys2Proof.Machine

/-- The registers of the map (10_state.md R21). -/
inductive RegName where
  /-- CMD. -/
  | cmd
  /-- STATUS. -/
  | status
  /-- CONFIG. -/
  | config
  /-- SRC_W. -/
  | srcW
  /-- SRC_H. -/
  | srcH
  /-- TIMESTAMP. -/
  | timestamp
  /-- OPA_R. -/
  | opaR
  /-- OPA_G. -/
  | opaG
  /-- OPA_B. -/
  | opaB
  /-- OPB_R. -/
  | opbR
  /-- OPB_G. -/
  | opbG
  /-- OPB_B. -/
  | opbB
  /-- RES0. -/
  | res0
  /-- RES1. -/
  | res1
  /-- RES2. -/
  | res2
  /-- PAL_i_c: entry `i`, channel `c` (R = 0, G = 1, B = 2). -/
  | pal (i : Fin 7) (c : Fin 3)
deriving DecidableEq, Repr

/-- A register's offset by the map's formulas (10_state.md R21). -/
def regOffset : RegName → Nat
  | .cmd => 0x000
  | .status => 0x008
  | .config => 0x010
  | .srcW => 0x018
  | .srcH => 0x020
  | .timestamp => 0x028
  | .opaR => 0x030
  | .opaG => 0x038
  | .opaB => 0x040
  | .opbR => 0x048
  | .opbG => 0x050
  | .opbB => 0x058
  | .res0 => 0x060
  | .res1 => 0x068
  | .res2 => 0x070
  | .pal i c => 0x080 + 0x18 * i.val + 8 * c.val

/-- The fifteen registers below the palette, in the order of the map (10_state.md R21). -/
def controlRegs : List RegName :=
  [.cmd, .status, .config, .srcW, .srcH, .timestamp, .opaR, .opaG, .opaB, .opbR, .opbG, .opbB, .res0, .res1, .res2]

/-- The palette register at an offset, by its formula 0x080 + 0x18*i + 8*c with i up to 6 and c up to 2 (10_state.md R21). -/
def palAt (a : Nat) : Option RegName :=
  let k := (a - 0x080) / 8
  if h : 0x080 ≤ a ∧ a ≤ 0x120 ∧ a % 8 = 0 then
    some (.pal ⟨k / 3, by omega⟩ ⟨k % 3, Nat.mod_lt k (by decide)⟩)
  else none

/-- The register at an offset, or `none` at one that no formula of the map gives (10_state.md R21, R30). -/
def regAt (a : Nat) : Option RegName :=
  match controlRegs.find? (fun r => regOffset r == a) with
  | some r => some r
  | none => palAt a

/-- Channel `c` of a colour (10_state.md R21: R = 0, G = 1, B = 2). -/
def channelOf (col : LinearColor) (c : Fin 3) : Word :=
  match c with
  | 0 => col.r
  | 1 => col.g
  | 2 => col.b

/-- A host read returns a value (30_encoding.md R97). -/
def reply (v : Word) (s : State) : State := { s with replies := v :: s.replies }

/-- A host read of an operand or result register: what it holds; `READ_UNWRITTEN` is recorded if its mark is set
(44_control.md R243, log 1). -/
def replyReg (r : DataReg) (s : State) : State := reply r.value (noteRead [r] s)

/-- An access to a register whose offset lies past the register file, where the offsets are reserved (10_state.md R30,
20_memory.md R62): `BAD_ACCESS` is recorded and the access takes its effect. PAL_6_B is the one such register.
DESIGN CHOICE (log 13). -/
def noteReserved (r : RegName) (s : State) : State :=
  if Config.REG_LEN ≤ regOffset r then recordFault .badAccess s else s

/-- The `n` low bytes of a free value, fresh at every read, while BUSY = 1 (70_reset_and_hazards.md R294, log 7). -/
def replyFree (n : Nat) (s : State) : State :=
  { reply (wordOfBytes (bytesOf (Config.freeRead s.draws) n)) s with draws := s.draws + 1 }

/-- A host read of a result register: free while BUSY = 1 (44_control.md R243, 70_reset_and_hazards.md R294). -/
def replyResult (r : DataReg) (s : State) : State :=
  if s.status.busy then replyFree 8 s else replyReg r s

/-- `HRD(a, 8)` of a register (44_control.md R243). -/
def readReg (r : RegName) (s : State) : State :=
  match r with
  | .cmd => reply 0 s
  | .status => reply (statusWord s.status) s
  | .config => reply s.config s
  | .srcW => reply s.srcW s
  | .srcH => reply s.srcH s
  | .timestamp => reply s.timestamp s
  | .opaR => replyReg s.opaR s
  | .opaG => replyReg s.opaG s
  | .opaB => replyReg s.opaB s
  | .opbR => replyReg s.opbR s
  | .opbG => replyReg s.opbG s
  | .opbB => replyReg s.opbB s
  | .res0 => replyResult s.res0 s
  | .res1 => replyResult s.res1 s
  | .res2 => replyResult s.res2 s
  | .pal i c => reply (channelOf (paletteEntry s.palette i) c) (noteReserved (.pal i c) s)

/-- A write of an input while BUSY = 1 is the model fault `HOST_HAZARD`; otherwise it takes effect
(70_reset_and_hazards.md R293). -/
def writeInput (s written : State) : Result :=
  if s.status.busy then .fault .hostHazard else .next written

/-- `HWR(a, 8, v)` of a register other than CMD: the inputs store `v` and clear their mark, the read-only registers ignore
the write (44_control.md R244). CMD holds no value (10_state.md R22): its write is `submit` of Machine/HostPort.lean. -/
def writeReg (r : RegName) (v : Word) (s : State) : Result :=
  match r with
  | .srcW => writeInput s { s with srcW := v }
  | .srcH => writeInput s { s with srcH := v }
  | .timestamp => writeInput s { s with timestamp := v }
  | .opaR => writeInput s { s with opaR := writtenReg v }
  | .opaG => writeInput s { s with opaG := writtenReg v }
  | .opaB => writeInput s { s with opaB := writtenReg v }
  | .opbR => writeInput s { s with opbR := writtenReg v }
  | .opbG => writeInput s { s with opbG := writtenReg v }
  | .opbB => writeInput s { s with opbB := writtenReg v }
  | .cmd => .next s
  | .status => .next s
  | .config => .next s
  | .res0 => .next s
  | .res1 => .next s
  | .res2 => .next s
  | .pal i c => .next (noteReserved (.pal i c) s)

end Sys2Proof.Machine
end

