-- ==== Sys2Proof/Machine/HostPort.lean ====
section
/-! DEFINITION. The host's side: transactions, `poll`, reset, and what each agent does in its step (44_control.md R240 to
R248; 20_memory.md R61 to R64; 70_reset_and_hazards.md R290). -/

namespace Sys2Proof.Machine

/-- A width a window takes, at an offset that is a multiple of it (20_memory.md R64(b)). -/
def windowWidth (a n : Nat) : Bool := (n == 1 || n == 2 || n == 4 || n == 8) && a % n == 0

/-- An access that a window of `len` bytes from `base` takes: admitted width and alignment, and wholly inside it
(20_memory.md R62, R64). -/
def inWindow (base len a n : Nat) : Bool := windowWidth a n && decide (base ≤ a) && decide (a + n ≤ base + len)

/-- What an admitted host access reaches. -/
inductive Target where
  /-- The SRC window. -/
  | src
  /-- The FRAME window. -/
  | frame
  /-- A register, whole. -/
  | reg (r : RegName)
  /-- None: `BAD_ACCESS`. -/
  | bad
  /-- No block transaction at all. -/
  | outside
deriving DecidableEq, Repr

/-- The target of `n` bytes at offset `a`, found before BUSY or a mark is looked at (20_memory.md R61, R62, R64; 44_control.md
R247). DEDUCED (logs 21 and 22). -/
def targetOf (a n : Nat) : Target :=
  if Config.BLOCK_LEN ≤ a then .outside
  else if inWindow Config.SRC_BASE Config.SRC_LEN a n then .src
  else if inWindow Config.FRAME_BASE Config.FRAME_LEN a n then .frame
  else if n = 8 then
    match regAt a with
    | some r => .reg r
    | none => .bad
  else .bad

/-- `MemRead(a, n)` for the host, little-endian; an unwritten byte is the model fault `READ_UNWRITTEN` (44_control.md
R245). -/
def readWindow (a n : Nat) (s : State) : Result :=
  match storeReadAll s.mem a n with
  | some bytes => .next (reply (wordOfBytes bytes) s)
  | none => .fault .readUnwritten

/-- `HRD(a, n)` (44_control.md R243, R245, R247). -/
def hostRead (a n : Nat) (s : State) : Result :=
  match targetOf a n with
  | .src => readWindow a n s
  | .frame => if s.status.busy then .next (replyFree n s) else readWindow a n s
  | .reg r => .next (readReg r s)
  | .bad => .fault .badAccess
  | .outside => .refused .outsideBlock

/-- An illegal command word at CMD: OVR while BUSY = 1, else ERR = ILLEGAL_CMD; STATUS alone changes (30_encoding.md R94;
60_exceptions.md R262, R264). -/
def rejectIllegal (s : State) : State :=
  if s.status.busy then overrun s else raiseError .illegalCmd s

/-- A command word arrives at CMD (10_state.md R22, 44_control.md R241). -/
def submit (w : Word) (s : State) : Result :=
  match decode w with
  | .ok i => exec i s
  | .error _ => .next (rejectIllegal s)

/-- `HWR(a, n, v)` (44_control.md R244, R246, R247). -/
def hostWrite (a n : Nat) (v : Word) (s : State) : Result :=
  match targetOf a n with
  | .src => writeInput s { s with mem := storeWriteAll s.mem a (bytesOf v n) }
  | .frame => .next s
  | .reg .cmd => submit v s
  | .reg r => writeReg r v s
  | .bad => .fault .badAccess
  | .outside => .refused .outsideBlock

/-- `poll`: STATUS is read, and read again while bit [0] of the value read is 1 (30_encoding.md R99). -/
def hostPoll (s : State) : State :=
  let read := readReg .status s
  if s.status.busy then { read with host := .poll :: read.host } else read

/-- The reset input: every piece of the block's state takes its value of the reset table, and a running command is
abandoned (70_reset_and_hazards.md R290). The host's queue, its replies, the order of the turns and the counter are not the
block's; a recorded fault stays recorded (10_state.md R41, log 14). -/
def resetBlock (s : State) : State :=
  { State.reset with
    faults := s.faults
    draws := s.draws
    turn := s.turn
    schedule := s.schedule
    hostTurns := s.hostTurns
    host := s.host
    replies := s.replies }

/-- One entry of the host's queue (44_control.md R240: each transaction is one atomic step). A reset takes its place in that
queue and one step of the host's turn. DESIGN CHOICE (log 23). -/
def hostAct (op : HostOp) (s : State) : Result :=
  match op with
  | .read a n => hostRead a n s
  | .write a n v => hostWrite a n v s
  | .poll => .next (hostPoll s)
  | .reset => .next (resetBlock s)

/-- The host's step: the first entry of its queue; with nothing left to issue nothing changes (70_reset_and_hazards.md
R298). -/
def hostTurn (s : State) : Result :=
  match s.host with
  | [] => .next s
  | op :: rest => hostAct op { s with host := rest }

/-- The engine's step: the active command while the phase is RUN, nothing in IDLE (44_control.md R248, 10_state.md R36). -/
def engineTurn (s : State) : Result :=
  match s.phase, s.active with
  | .run, some i => exec i s
  | _, _ => .next s

/-- The step of the agent whose turn it is (20_memory.md R70). -/
def agentStep (s : State) : Result :=
  match s.turn with
  | .host => hostTurn s
  | .engine => engineTurn s

/-- The write of the command word whose bits are `w` as the host's next transaction, and the host's turn. -/
def placeCommand (nbits w : Nat) (s : State) : State :=
  { s with turn := .host, host := .write (regOffset .cmd) 8 (BitVec.ofNat 64 (w % 2 ^ nbits)) :: s.host }

/-- The block offset of a host bus address, or `none` outside the block (20_memory.md R61). -/
def offsetOfBus (addr : Nat) : Option Nat :=
  if Config.base ≤ addr ∧ addr < Config.base + Config.BLOCK_LEN then some (addr - Config.base) else none

end Sys2Proof.Machine
end

