-- ==== Sys2Proof/Machine/Step.lean ====
section
/-! DEFINITION. One step of the model: one host transaction or one engine step, then the turn passes (44_control.md R240,
R248). -/

namespace Sys2Proof.Machine

/-- One step. -/
def step (s : State) : Host.Outcome State Fault Refusal := passTurn (agentStep s)

/-- The state whose very next step submits the command word of the given bits. The block fetches no instruction
(20_memory.md R74): a command comes to it as a CMD write, so that write is put at the head of the host's queue and the
turn is the host's (log 10). -/
def State.withFetchWord (s : State) (nbits w : Nat) : State := placeCommand nbits w s

end Sys2Proof.Machine
end

