-- ==== Sys2Proof/Machine/HostProgram.lean ====
section
/-! DEFINITION. The syntax of host programs and its pseudo-instructions (30_encoding.md R98, R99). -/

namespace Sys2Proof.Machine

/-- `rd64 NAME` (30_encoding.md R98). -/
def rd64 (r : RegName) : HostOp := .read (regOffset r) 8

/-- `wr64 NAME, v` (30_encoding.md R98). -/
def wr64 (r : RegName) (v : Word) : HostOp := .write (regOffset r) 8 v

/-- `rd<8n> SRC+a` (30_encoding.md R98). -/
def rdSrc (n a : Nat) : HostOp := .read (Config.SRC_BASE + a) n

/-- `wr<8n> SRC+a, v` (30_encoding.md R98). -/
def wrSrc (n a : Nat) (v : Word) : HostOp := .write (Config.SRC_BASE + a) n v

/-- `rd<8n> FRAME+a` (30_encoding.md R98). -/
def rdFrame (n a : Nat) : HostOp := .read (Config.FRAME_BASE + a) n

/-- `cmd OP` (30_encoding.md R99). -/
def cmd (i : Instr) : HostOp := wr64 .cmd (encode i)

/-- `setop A, (r, g, b)` (30_encoding.md R99). -/
def setopA (c : LinearColor) : List HostOp := [wr64 .opaR c.r, wr64 .opaG c.g, wr64 .opaB c.b]

/-- `setop B, (r, g, b)` (30_encoding.md R99). -/
def setopB (c : LinearColor) : List HostOp := [wr64 .opbR c.r, wr64 .opbG c.g, wr64 .opbB c.b]

/-- `(a<<24)|(b<<16)|(g<<8)|r` (30_encoding.md R99). -/
def pixelWord (r g b a : Byte) : Word := ((a ++ b ++ g ++ r : BitVec 32)).setWidth 64

/-- `setpix SRC, (x, y), (r, g, b, a)` (30_encoding.md R99). -/
def setpix (x y : Nat) (r g b a : Byte) : HostOp := wrSrc 4 (4 * (600 * y + x)) (pixelWord r g b a)

/-- The writes of `fillpix` for `n` pixels from pixel number `k` on. -/
def fillFrom (r g b a : Byte) : Nat → Nat → List HostOp
  | 0, _ => []
  | n + 1, k => wrSrc 4 (4 * k) (pixelWord r g b a) :: fillFrom r g b a n (k + 1)

/-- `fillpix SRC, (r, g, b, a)`: k = 0..268799 in increasing order (30_encoding.md R99). -/
def fillpix (r g b a : Byte) : List HostOp := fillFrom r g b a Config.numPixels 0

/-- A host program about to run: its transactions are the host's queue. -/
def loadProgram (prog : List HostOp) (s : State) : State := { s with host := prog }

end Sys2Proof.Machine
end

