-- ==== Sys2Proof/Safety.lean ====
section
/-! DEFINITION. What claims are stated in: the state invariants of the block, what a completing or an idle state is, and
which runs are safe. -/

namespace Sys2Proof.Machine

/-- An offset of the SRC window (20_memory.md R62). -/
def inSrcWindow (a : Nat) : Prop := Config.SRC_BASE ≤ a ∧ a < Config.SRC_BASE + Config.SRC_LEN

/-- An offset of the FRAME window (20_memory.md R62). -/
def inFrameWindow (a : Nat) : Prop := Config.FRAME_BASE ≤ a ∧ a < Config.FRAME_BASE + Config.FRAME_LEN

/-- The windows, PIX and the frame image are in canonical form. -/
def StoresCanonical (s : State) : Prop :=
  Memory.wf s.mem = true ∧ storeWf s.scan.pix = true ∧ storeWf s.scan.fb = true

/-- Only cells that exist are listed: window bytes of SRC and FRAME, PIX channels of the image, bytes of the frame image
(10_state.md R33 to R35; 20_memory.md R62). -/
def StoresInRange (s : State) : Prop :=
  (∀ a, (storeRead s.mem a).isSome → inSrcWindow a ∨ inFrameWindow a) ∧
  (∀ k, (storeRead s.scan.pix k).isSome → k < 3 * Config.numPixels) ∧
  (∀ k, (storeRead s.scan.fb k).isSome → k < Config.FRAME_LEN)

/-- The registers a direct command reads (30_encoding.md R92); the other commands read none of the operand registers. -/
def commandRegs (i : Instr) (s : State) : List DataReg :=
  match i with
  | .nop => []
  | .convert => []
  | .gamma => operandRegsA s
  | .lab => operandRegsA s
  | .de2000 => operandRegsAB s
  | .nearest => operandRegsA s

/-- Every register of a list has been written (10_state.md R41). -/
def AllRegsWritten (regs : List DataReg) : Prop := anyUnwritten regs = false

/-- Every register of a list holds a finite value (60_exceptions.md R263). -/
def AllRegsFinite (regs : List DataReg) : Prop := anyNonfinite regs = false

/-- Phase, active command and STATUS agree: RUN exactly when BUSY (10_state.md R36), BUSY implies not DONE (R23), and a
running command is one of the five that start, with at least one engine step to go and no error (44_control.md R241,
60_exceptions.md R260), and the registers it reads are written and finite, as its acceptance found them (60_exceptions.md
R268, 20_memory.md R70). -/
def EngineConsistent (s : State) : Prop :=
  (s.phase = .run ↔ s.status.busy = true) ∧
  (s.status.busy = true → s.status.done = false ∧ s.status.err = .none ∧ 0 < s.latLeft ∧
    ∃ i, s.active = some i ∧ i ≠ .nop ∧ AllRegsWritten (commandRegs i s) ∧ AllRegsFinite (commandRegs i s))

/-- The parameters the state exposes are the device's (10_state.md R24, R29, R31). -/
def ParametersFixed (s : State) : Prop := s.palette = devicePalette ∧ s.config = configReset

/-- A direct command that ran in `s` has completed in `t`: IDLE, STATUS of a completion, a result written, and no fault recorded
if its registers were written (20_memory.md R71). -/
def DirectDone (i : Instr) (s t : State) : Prop :=
  t.phase = .idle ∧ t.status.busy = false ∧ t.status.done = true ∧ t.status.err = .none ∧ t.res0.unwritten = false ∧
  (AllRegsWritten (commandRegs i s) → t.faults = s.faults)

/-- The engine's next step is the completion step of command `i` (44_control.md R248). -/
def Completing (i : Instr) (s : State) : Prop :=
  s.turn = .engine ∧ s.phase = .run ∧ s.active = some i ∧ s.latLeft ≤ 1

/-- The host's turn with no command running: a CMD write is accepted or rejected on its own merits (44_control.md
R241). -/
def Ready (s : State) : Prop := s.turn = .host ∧ s.status.busy = false

/-- The R, G and B bytes of every pixel of SRC have been written (70_reset_and_hazards.md R291). -/
def SourceWritten (s : State) : Prop :=
  ∀ p, p < Config.numPixels →
    (srcByte s (4 * p)).isSome ∧ (srcByte s (4 * p + 1)).isSome ∧ (srcByte s (4 * p + 2)).isSome

/-- The index that the scan of a CONVERT completing in this state chooses at pixel number `n`, if its load succeeds
(42_ditherer.md R183 to R185, R189). -/
def indexAt (s : State) (n : Nat) : Option (Fin 7) :=
  match loadPixels params.elem (srcByte s) Config.numPixels 0 s.scan.pix with
  | none => none
  | some pix =>
    match scanPixels params s.palette (configRot180 s) n { s.scan with cursor := cursorStart, pix := pix } with
    | none => none
    | some sc => chosenIndex params s.palette sc

/-- A host read at an offset answers with what a register holds: with no other change where the register has been written,
and otherwise with READ_UNWRITTEN recorded and the machine going on (44_control.md R243, log 1). -/
def RegisterAnswers (a : Nat) (r : DataReg) (s : State) : Prop :=
  (r.unwritten = false → hostRead a 8 s = .next { s with replies := r.value :: s.replies }) ∧
  (r.unwritten = true →
    ∃ f : List Fault, hostRead a 8 s = .next { s with replies := r.value :: s.replies, faults := f } ∧
      ∀ g, g ∈ f ↔ g = .readUnwritten ∨ g ∈ s.faults)

/-- The end of a run: nothing left to issue, the engine idle, and no fault recorded, for a faulted state is never final
(70_reset_and_hazards.md R298, 00_scope.md R14). -/
def IsFinal (s : State) : Prop := s.host = [] ∧ s.phase = .idle ∧ s.faults = []

/-- A run of `n` steps that stops nowhere and records no fault (60_exceptions.md R266: a claim about a run takes this as a
premise). -/
def SafeRun (n : Nat) (s : State) : Prop := ∃ t, core.run n s = .next t ∧ t.faults = []

/-- GAMMA, LAB, DE2000 and NEAREST (00_scope.md R17). -/
def IsDirect (i : Instr) : Prop := i = .gamma ∨ i = .lab ∨ i = .de2000 ∨ i = .nearest

end Sys2Proof.Machine
end

