-- ==== Sys2Proof/WellFormed.lean ====
section
/-! DEFINITION. Which command words and which commands are well formed (30_encoding.md R90, R92, R94). -/

namespace Sys2Proof

/-- The check on the reserved field: `rsv` = [63:8] must be 0 (30_encoding.md R90). -/
def reservedIsZero (w : Word) : Bool := w.extractLsb' 8 56 == 0

/-- The check on the opcode: `op` = [7:0] must be one of 0x00..0x05 (30_encoding.md R92, R94). -/
def opcodeIsKnown (w : Word) : Bool := decide ((w.extractLsb' 0 8).toNat ≤ 5)

/-- A command word that passes both checks; every other word is illegal (30_encoding.md R94). -/
def wellFormedWord (w : Word) : Bool := reservedIsZero w && opcodeIsKnown w

/-- A command has no fields (30_encoding.md R93), so nothing about one can be ill formed: the checks are on its word. -/
def Instr.wellFormed : Instr → Bool
  | .nop => true
  | .convert => true
  | .gamma => true
  | .lab => true
  | .de2000 => true
  | .nearest => true

end Sys2Proof
end

