-- ==== Sys2Proof/Certificates/Slice0/Obligations.lean ====
section
/-! DEFINITION. The statements for the provers. Each docstring names the rule of spec/ it formalises. -/

open Sys2Proof Sys2Proof.Machine

/-! ### Encoding -/

/-- The words of 30_encoding.md R92, written out, and three words of R94. -/
def Obligations.WordsDecodeAsTheOpcodeMapSays : Prop :=
  decode 0x0000000000000000 = .ok .nop ∧ decode 0x0000000000000001 = .ok .convert ∧
  decode 0x0000000000000002 = .ok .gamma ∧ decode 0x0000000000000003 = .ok .lab ∧
  decode 0x0000000000000004 = .ok .de2000 ∧ decode 0x0000000000000005 = .ok .nearest ∧
  decode 0x0000000000000006 = .error .opcode ∧ decode 0x00000000000000FF = .error .opcode ∧
  decode 0x0000000000000101 = .error .reservedBits

/-- Decode and encode agree in both directions: the bytes of an encoded command decode to it, and no other word does
(30_encoding.md R92: all 64 bits are compared). -/
def Obligations.DecodeAndEncodeAgree : Prop :=
  ∀ i : Instr, i.wellFormed = true →
    decodeBytes (encodeBytes i) = .ok (i, []) ∧ ∀ w : Word, decode w = .ok i ↔ w = encode i

/-- 30_encoding.md R96: every word is exactly one of the six commands, or illegal, which is to have an opcode in
0x06..0xFF or a reserved field that is not 0 (R94). -/
def Obligations.DecodingIsTotalAndUnambiguous : Prop :=
  ∀ w : Word,
    ((∃ i, decode w = .ok i ∧ ∀ j, decode w = .ok j → j = i) ∨ ∃ e, decode w = .error e) ∧
    ((∃ e, decode w = .error e) ↔ 0x06 ≤ (opField w).toNat ∨ rsvField w ≠ 0) ∧
    ((∃ i, decode w = .ok i) ↔ wellFormedWord w = true)

/-! ### Steps -/

/-- A step runs the decoded command: on the host's turn a CMD write that decodes to `i` is `exec i` with the write taken
off the queue, and on the engine's turn a running `i` is `exec i` (44_control.md R240, R241, R248). The host's queue, and
`withFetchWord`, by which a placed command is what the very next step runs, are the model's choice of log 10; the passing of
the turn around each is that of log 9. -/
def Obligations.StepRunsTheDecodedCommand : Prop :=
  (∀ (s : State) (w : Word) (i : Instr) (rest : List HostOp), s.turn = .host →
    s.host = .write 0x000 8 w :: rest → decode w = .ok i → step s = passTurn (exec i { s with host := rest })) ∧
  (∀ (s : State) (i : Instr), s.turn = .engine → s.phase = .run → s.active = some i →
    step s = passTurn (exec i s)) ∧
  (∀ (s : State) (i : Instr),
    step (s.withFetchWord 64 (encode i).toNat) = passTurn (exec i { s with turn := .host }))

/-- 10_state.md R36: in IDLE the engine takes no step; that its turn passes is the model's choice of log 9. -/
def Obligations.IdleEngineTakesNoStep : Prop :=
  ∀ s : State, s.turn = .engine → s.phase = .idle → step s = .next (nextTurn s)

/-! ### Acceptance -/

/-- 44_control.md R242: a NOP accepted answers DONE 1, ERR NONE and OVR 0 and nothing else changes; while BUSY it sets
OVR; the engine takes no step for it; its word is 0. -/
def Obligations.NopAnswersDoneWithNoError : Prop :=
  encode .nop = 0 ∧
  (∀ s : State, Ready s →
    exec .nop s = .next { s with status := { busy := false, done := true, ovr := false, err := .none } }) ∧
  (∀ s : State, s.turn = .host → s.status.busy = true →
    exec .nop s = .next { s with status := { s.status with ovr := true } }) ∧
  (∀ s : State, s.turn = .engine → exec .nop s = .next s)

/-- 44_control.md R241: a direct command with written, finite operands is accepted: BUSY 1, phase RUN, `active` and at
least one engine step to go, and nothing else changes but the host turns before the engine's first one and the counter of free
values. That both numbers are drawn at acceptance is the model's choice (logs 8 and 9). -/
def Obligations.DirectCommandIsAccepted : Prop :=
  ∀ (i : Instr) (s : State), IsDirect i → Ready s → AllRegsWritten (commandRegs i s) →
    AllRegsFinite (commandRegs i s) →
    1 ≤ Config.latency s.draws ∧
    exec i s = .next { s with
      status := { busy := true, done := false, ovr := false, err := .none }
      phase := .run
      active := some i
      latLeft := Config.latency s.draws
      hostTurns := Config.hostTurns s.draws
      draws := s.draws + 1 }

/-- 60_exceptions.md R263, R260: a NaN or an infinity in a register that a direct command reads rejects it with
NONFINITE_OPERAND, and STATUS alone changes. -/
def Obligations.NonfiniteOperandIsRejected : Prop :=
  ∀ (i : Instr) (s : State), IsDirect i → Ready s → AllRegsWritten (commandRegs i s) →
    (∃ r ∈ commandRegs i s, fisNaN r.value = true ∨ fisInf r.value = true) →
    exec i s = .next { s with
      status := { busy := false, done := true, ovr := false, err := .nonfiniteOperand } }

/-- 60_exceptions.md R268, step 4, 10_state.md R41, R266: an unwritten register among those a direct command reads decides: the
command is neither started nor rejected with a code, whatever the other registers hold; READ_UNWRITTEN is recorded, DONE, OVR
and ERR are cleared (44_control.md R241), and nothing else changes. That the machine goes on after the record is the model's
choice of log 1. -/
def Obligations.UnwrittenOperandIsRecorded : Prop :=
  ∀ (i : Instr) (s : State), IsDirect i → Ready s → anyUnwritten (commandRegs i s) = true →
    ∃ f : List Fault, (∀ g, g ∈ f ↔ g = .readUnwritten ∨ g ∈ s.faults) ∧
      exec i s = .next { s with
        status := { busy := false, done := false, ovr := false, err := .none }
        faults := f }

/-- 42_ditherer.md R182 (and the comparison of R181): a CONVERT whose SRC_W or SRC_H differs changes STATUS alone,
whatever SRC holds, written or not. -/
def Obligations.DimensionMismatchChangesOnlyStatus : Prop :=
  ∀ s : State, Ready s → s.srcW.toNat ≠ 600 ∨ s.srcH.toNat ≠ 448 →
    exec .convert s = .next { s with
      status := { busy := false, done := true, ovr := false, err := .dimMismatch } }

/-- 42_ditherer.md R181, 44_control.md R241: a CONVERT with the right dimensions is accepted. That LAT and the host turns before
the engine's first one are drawn at acceptance is the model's choice (logs 8 and 9). -/
def Obligations.ConvertIsAccepted : Prop :=
  ∀ s : State, Ready s → s.srcW.toNat = 600 → s.srcH.toNat = 448 →
    exec .convert s = .next { s with
      status := { busy := true, done := false, ovr := false, err := .none }
      phase := .run
      active := some .convert
      latLeft := Config.latency s.draws
      hostTurns := Config.hostTurns s.draws
      draws := s.draws + 1 }

/-- 30_encoding.md R94: an illegal word is rejected with ILLEGAL_CMD while BUSY = 0 and sets OVR while BUSY = 1; STATUS
alone changes. -/
def Obligations.IllegalWordChangesOnlyStatus : Prop :=
  ∀ (s : State) (w : Word), 0x06 ≤ (opField w).toNat ∨ rsvField w ≠ 0 →
    (s.status.busy = false →
      hostWrite 0x000 8 w s = .next { s with
        status := { busy := false, done := true, ovr := false, err := .illegalCmd } }) ∧
    (s.status.busy = true →
      hostWrite 0x000 8 w s = .next { s with status := { s.status with ovr := true } })

/-- 60_exceptions.md R264: a CMD write of any word while BUSY = 1 sets OVR and changes nothing else, the running command,
its results and its ERR included; a CMD write accepted while BUSY = 0 clears OVR. That one with unwritten operands answers at
all is the model's choice of log 1. -/
def Obligations.CommandWhileBusyOnlySetsOverrun : Prop :=
  (∀ (s : State) (w : Word), s.turn = .host → s.status.busy = true →
    hostWrite 0x000 8 w s = .next { s with status := { s.status with ovr := true } }) ∧
  (∀ (s : State) (w : Word), Ready s → ∃ t, hostWrite 0x000 8 w s = .next t ∧ t.status.ovr = false)

/-- 60_exceptions.md R269: an error writes STATUS and leaves every other piece of state as it was before the CMD write;
a register that has never been written being read is the model's matter (log 1), so the registers are written here. -/
def Obligations.ErrorsLeaveEverythingElse : Prop :=
  ∀ (s t : State) (w : Word), Ready s →
    AllRegsWritten (operandRegsAB s) → hostWrite 0x000 8 w s = .next t → t.status.err ≠ .none →
    t.status.done = true ∧ t.status.busy = false ∧ t = { s with status := t.status }

/-! ### Completion -/

/-- 44_control.md R248: before its last engine step a running command changes nothing but the steps left, which the model
counts down (log 8). That the engine's work area waits too is the model's choice of log 15: 42_ditherer.md R191 lets a model
perform a whole CONVERT in its completion step. -/
def Obligations.EngineWaitsUntilItsLastStep : Prop :=
  ∀ (i : Instr) (s : State), i ≠ .nop → s.turn = .engine → s.phase = .run → s.active = some i → 1 < s.latLeft →
    exec i s = .next { s with latLeft := s.latLeft - 1 }

/-- 40_colormath.md R119: the completion of GAMMA. -/
def Obligations.GammaCompletes : Prop :=
  ∀ s : State, Completing .gamma s → AllRegsWritten (operandRegsA s) →
    exec .gamma s = .next { s with
      res0 := { value := gammaLinear elemFns s.opaR.value, unwritten := false }
      res1 := { value := gammaLinear elemFns s.opaG.value, unwritten := false }
      res2 := { value := gammaLinear elemFns s.opaB.value, unwritten := false }
      status := { s.status with busy := false, done := true, err := .none }
      phase := .idle
      latLeft := 0 }

/-- 40_colormath.md R120: the completion of LAB. -/
def Obligations.LabCompletes : Prop :=
  ∀ s : State, Completing .lab s → AllRegsWritten (operandRegsA s) →
    exec .lab s = .next { s with
      res0 := { value := (rgbToLab params ⟨s.opaR.value, s.opaG.value, s.opaB.value⟩).L, unwritten := false }
      res1 := { value := (rgbToLab params ⟨s.opaR.value, s.opaG.value, s.opaB.value⟩).a, unwritten := false }
      res2 := { value := (rgbToLab params ⟨s.opaR.value, s.opaG.value, s.opaB.value⟩).b, unwritten := false }
      status := { s.status with busy := false, done := true, err := .none }
      phase := .idle
      latLeft := 0 }

/-- 41_distance.md R153: the completion of DE2000. -/
def Obligations.De2000Completes : Prop :=
  ∀ s : State, Completing .de2000 s → AllRegsWritten (operandRegsAB s) →
    exec .de2000 s = .next { s with
      res0 :=
        { value := colorDifference params ⟨s.opaR.value, s.opaG.value, s.opaB.value⟩
            ⟨s.opbR.value, s.opbG.value, s.opbB.value⟩
          unwritten := false }
      res1 := { value := 0, unwritten := false }
      res2 := { value := 0, unwritten := false }
      status := { s.status with busy := false, done := true, err := .none }
      phase := .idle
      latLeft := 0 }

/-- 41_distance.md R154: the completion of NEAREST; RES0 is an integer 0..6. -/
def Obligations.NearestCompletes : Prop :=
  ∀ s : State, Completing .nearest s → AllRegsWritten (operandRegsA s) →
    ∃ (n : Nat) (d : F64), n ≤ 6 ∧
      ((nearest params s.palette ⟨s.opaR.value, s.opaG.value, s.opaB.value⟩).1.val = n) ∧
      ((nearest params s.palette ⟨s.opaR.value, s.opaG.value, s.opaB.value⟩).2 = d) ∧
      exec .nearest s = .next { s with
        res0 := { value := BitVec.ofNat 64 n, unwritten := false }
        res1 := { value := d, unwritten := false }
        res2 := { value := 0, unwritten := false }
        status := { s.status with busy := false, done := true, err := .none }
        phase := .idle
        latLeft := 0 }

/-- The completion of a direct command whose registers were never written records READ_UNWRITTEN and is otherwise the
completion (log 1): STATUS, the phase and the three written results. -/
def Obligations.DirectCompletionAlwaysAnswers : Prop :=
  ∀ (i : Instr) (s : State), IsDirect i → Completing i s →
    ∃ t, exec i s = .next t ∧ t.phase = .idle ∧
      t.status = { s.status with busy := false, done := true, err := .none } ∧
      t.res0.unwritten = false ∧ t.res1.unwritten = false ∧ t.res2.unwritten = false ∧
      (∀ f, f ∈ t.faults ↔ (anyUnwritten (commandRegs i s) = true ∧ f = .readUnwritten) ∨ f ∈ s.faults)

/-- 44_control.md R248, 70_reset_and_hazards.md R296, R297: a running direct command with `n + 1` engine steps left. Where the
schedule gives the engine every turn, it has completed after exactly those steps. Where the schedule is exhausted and the host
only polls, or has nothing left to issue, it completes after some finite number of steps, however many turns the host has
between; and before that it outlasts every turn the host still has. With its registers written the run to its completion
records no fault (60_exceptions.md R266). Schedule and host turns are the model's choice of log 9; that unwritten registers do
not stop the run is the model's choice of log 1. -/
def Obligations.DirectCommandCompletesAfterItsLatency : Prop :=
  ∀ (i : Instr) (s : State) (n : Nat), IsDirect i → s.phase = .run → s.active = some i → s.latLeft = n + 1 →
    (s.turn = .engine → s.schedule = List.replicate n .engine →
      ∃ t, core.run (n + 1) s = .next t ∧ DirectDone i s t ∧ t.turn = .host) ∧
    (s.schedule = [] → (∀ op ∈ s.host, op = .poll) →
      (∃ m t, n + 1 ≤ m ∧ core.run m s = .next t ∧ DirectDone i s t) ∧
      (s.turn = .host →
        ∃ t, core.run s.hostTurns s = .next t ∧ t.turn = .host ∧ t.phase = .run ∧ t.latLeft = n + 1))

/-- 42_ditherer.md R183, R185, R189, R190, 43_packer.md R211, R216, R218: with every R, G and B byte of SRC written, CONVERT
completes: STATUS and phase as R190 says, the 64 header bytes those of R216, at the position of each pair the byte of the two
indices the scan chooses at its pixels, so that every FRAME byte is written, and the cursor at the last pixel. The PIX that the
scan starts from, and `indexAt` with it, holds at each pixel the linear values of that pixel's own R, G and B bytes, in this
order (R183). The frame image in canonical form is an invariant (StepKeepsStoresCanonical); that all of it happens in the
completion step is the model's choice of log 15, by R191's leave. -/
def Obligations.ConvertPublishesAWholeFrame : Prop :=
  ∀ s : State, Completing .convert s → SourceWritten s → storeWf s.scan.fb = true →
    (∃ pix, loadPixels params.elem (srcByte s) Config.numPixels 0 s.scan.pix = some pix ∧
      ∀ (p : Nat) (r g b : Byte), p < 268800 → storeRead s.mem (0x100000 + 4 * p) = some r →
        storeRead s.mem (0x100000 + 4 * p + 1) = some g → storeRead s.mem (0x100000 + 4 * p + 2) = some b →
        readPixel pix p =
          some ⟨gammaLinear elemFns (unit8 r), gammaLinear elemFns (unit8 g), gammaLinear elemFns (unit8 b)⟩) ∧
    ∃ t, exec .convert s = .next t ∧
      t.status = { s.status with busy := false, done := true, err := .none } ∧ t.phase = .idle ∧ t.latLeft = 0 ∧
      (∀ k, k < Config.FRAME_LEN → (storeRead t.mem (Config.FRAME_BASE + k)).isSome) ∧
      (∀ k, k < Config.HDR_LEN → storeRead t.mem (Config.FRAME_BASE + k) = (headerBytes s.timestamp)[k]?) ∧
      (∀ xe y, xe < 600 → xe % 2 = 0 → y < 448 →
        ∃ (i j : Fin 7) (b : Byte), indexAt s (pixelNumber xe y) = some i ∧ indexAt s (pixelNumber (xe + 1) y) = some j ∧
          storeRead t.mem (Config.FRAME_BASE + bytePos (configRot180 s) xe y) = some b ∧
          (b.extractLsb' 0 4).toNat = i.val ∧ (b.extractLsb' 4 4).toNat = j.val) ∧
      t.scan.cursor.x.val = 599 ∧ t.scan.cursor.y.val = 447

/-- 43_packer.md R219: after a CONVERT every nibble of the body holds an index in 0..6, so bits 3 and 7 of every body
byte are 0. -/
def Obligations.BodyNibblesArePaletteIndices : Prop :=
  ∀ s t : State, Completing .convert s → storeWf s.scan.fb = true → exec .convert s = .next t →
    ∀ k, Config.HDR_LEN ≤ k → k < Config.FRAME_LEN →
      ∃ b : Byte, storeRead t.mem (Config.FRAME_BASE + k) = some b ∧ (b.extractLsb' 0 4).toNat ≤ 6 ∧
        (b.extractLsb' 4 4).toNat ≤ 6 ∧ b.getLsbD 3 = false ∧ b.getLsbD 7 = false

/-- 42_ditherer.md R183: an unwritten R, G or B byte of SRC is the model fault READ_UNWRITTEN at the load. That the load, and
so the fault, comes at the completion step and not at an earlier engine step is the model's choice of log 15, by R191's
leave. -/
def Obligations.UnwrittenSourceByteFaults : Prop :=
  ∀ (s : State) (p c : Nat), Completing .convert s → p < Config.numPixels → c < 3 →
    srcByte s (4 * p + c) = none → exec .convert s = .fault .readUnwritten

/-- 42_ditherer.md R192(b): under the white-image property of 10_state.md R32(b), and ROT180 as this hardware has it, a
uniform white image gives body bytes 0x11 and nothing else. -/
def Obligations.WhiteImageGivesAllOnes : Prop :=
  ∀ s : State, Completing .convert s → storeWf s.scan.fb = true → WhiteKept params s.palette →
    configRot180 s = true →
    (∀ p c, p < Config.numPixels → c < 3 → srcByte s (4 * p + c) = some 255) →
    ∃ t, exec .convert s = .next t ∧
      ∀ k, Config.HDR_LEN ≤ k → k < Config.FRAME_LEN → storeRead t.mem (Config.FRAME_BASE + k) = some 0x11

/-- 42_ditherer.md R192(c): the frame is a function of the R, G and B bytes of SRC, the parameters and TIMESTAMP, and
TIMESTAMP reaches its bytes 4..11 alone. Of two states that agree in those bytes, in the palette and in ROT180, one completes
its CONVERT where the other does, and the frames agree everywhere but there; so neither the alpha bytes, nor the old PIX, LATCH
and frame image, nor the old FRAME bytes, nor any other register reaches the frame. The frame images in canonical form are an
invariant (StepKeepsStoresCanonical). -/
def Obligations.TimestampReachesOnlyTheHeader : Prop :=
  ∀ s s' t : State, Completing .convert s → Completing .convert s' → storeWf s.scan.fb = true →
    storeWf s'.scan.fb = true → s'.palette = s.palette → configRot180 s' = configRot180 s →
    (∀ p c, p < Config.numPixels → c < 3 → srcByte s' (4 * p + c) = srcByte s (4 * p + c)) →
    exec .convert s = .next t →
    ∃ t', exec .convert s' = .next t' ∧
      ∀ k, k < Config.FRAME_LEN → s'.timestamp = s.timestamp ∨ k < 4 ∨ 12 ≤ k →
        storeRead t'.mem (Config.FRAME_BASE + k) = storeRead t.mem (Config.FRAME_BASE + k)

/-! ### Frames -/

/-- What a direct command leaves unchanged in every step it answers, on either agent's turn: every register but its
results, every palette entry, every byte of memory, the engine's work area and both agents' queues; and its results too,
unless the step is its completion step (40_colormath.md R119, R120; 41_distance.md R153, R154). -/
def Obligations.DirectCommandFrame : Prop :=
  ∀ (i : Instr) (s t : State), IsDirect i → exec i s = .next t →
    t.config = s.config ∧ t.srcW = s.srcW ∧ t.srcH = s.srcH ∧ t.timestamp = s.timestamp ∧
    t.opaR = s.opaR ∧ t.opaG = s.opaG ∧ t.opaB = s.opaB ∧ t.opbR = s.opbR ∧ t.opbG = s.opbG ∧ t.opbB = s.opbB ∧
    t.palette = s.palette ∧ t.scan = s.scan ∧ t.turn = s.turn ∧ t.schedule = s.schedule ∧ t.host = s.host ∧
    t.replies = s.replies ∧ (∀ a, storeRead t.mem a = storeRead s.mem a) ∧
    (¬Completing i s → t.res0 = s.res0 ∧ t.res1 = s.res1 ∧ t.res2 = s.res2)

/-- What CONVERT leaves unchanged in every step it answers: every register, RES0..RES2 included, the recorded faults, and
every byte outside FRAME; FRAME too unless the step is its completion step (42_ditherer.md R190; 10_state.md R28, R34). The
frame image holding only bytes of a frame is an invariant (StepKeepsStoresInRange). That the work area changes in the
completion step alone is the model's choice of log 15: R191 lets a model perform the whole command there. -/
def Obligations.ConvertFrame : Prop :=
  ∀ s t : State, (∀ k, (storeRead s.scan.fb k).isSome → k < Config.FRAME_LEN) → exec .convert s = .next t →
    t.config = s.config ∧ t.srcW = s.srcW ∧ t.srcH = s.srcH ∧ t.timestamp = s.timestamp ∧
    t.opaR = s.opaR ∧ t.opaG = s.opaG ∧ t.opaB = s.opaB ∧ t.opbR = s.opbR ∧ t.opbG = s.opbG ∧ t.opbB = s.opbB ∧
    t.res0 = s.res0 ∧ t.res1 = s.res1 ∧ t.res2 = s.res2 ∧ t.palette = s.palette ∧ t.faults = s.faults ∧
    t.turn = s.turn ∧ t.schedule = s.schedule ∧ t.host = s.host ∧ t.replies = s.replies ∧
    (∀ a, ¬inFrameWindow a → storeRead t.mem a = storeRead s.mem a) ∧
    (¬Completing .convert s → t.scan = s.scan ∧ ∀ a, storeRead t.mem a = storeRead s.mem a)

/-! ### Arithmetic -/

/-- 40_colormath.md R111: `clamp` on a value that is no NaN lies within its bounds, is the value itself where that lies
strictly inside, passes a NaN through, and keeps -0.0. -/
def Obligations.ClampStaysWithinItsBounds : Prop :=
  (∀ v lo hi : F64, fle lo hi = true → fisNaN v = false → fbetween lo (clamp v lo hi) hi = true) ∧
  (∀ v lo hi : F64, fle lo v = true → fle v hi = true → clamp v lo hi = v) ∧
  (∀ v lo hi : F64, fisNaN v = true → clamp v lo hi = v) ∧
  clamp 0x8000000000000000 (fnat 0) (fnat 1) = 0x8000000000000000

/-- 40_colormath.md R113, R118(a): `unit8` maps 0 to 0.0 and 255 to 1.0 exactly, and `gammaLinear(0.0) = 0.0` and
`gammaLinear(1.0) = 1.0` exactly, for every lawful binding. -/
def Obligations.GammaLinearFixesZeroAndOne : Prop :=
  unit8 0 = fnat 0 ∧ unit8 255 = fnat 1 ∧
  ∀ E : Elem, ElemLaws E → gammaLinear E (fnat 0) = fnat 0 ∧ gammaLinear E (fnat 1) = fnat 1

/-- 40_colormath.md R112, R119: 0.04045 and every value not above it, negative ones and -0.0 included, take the linear
branch, whatever the power function is; the threshold's own value is that of R118(b). -/
def Obligations.ThresholdTakesTheLinearBranch : Prop :=
  (∀ (E : Elem) (s : F64), fle s (flit 4045 5) = true → gammaLinear E s = fdiv s (flit 1292 2)) ∧
  (∀ E : Elem, gammaLinear E (flit 4045 5) = 0x3F69A5C61C57A062) ∧
  (∀ E : Elem, gammaLinear E 0x8000000000000000 = 0x8000000000000000)

/-- 40_colormath.md R118(c), R114, R120: under the default matrix, which is the model's binding of `M_XYZ` (log 6), black
converts to (0.0, 0.0, 0.0) exactly; and under every matrix every colour, whatever its channels, converts as the colour of
its channels clamped to [0,1]. -/
def Obligations.LabOfBlackAndOfClampedChannels : Prop :=
  (∀ E : Elem, rgbToLab ⟨E, defaultMatrix⟩ ⟨fnat 0, fnat 0, fnat 0⟩ = ⟨fnat 0, fnat 0, fnat 0⟩) ∧
  ∀ (P : Params) (c : LinearColor),
    rgbToLab P ⟨clamp c.r (fnat 0) (fnat 1), clamp c.g (fnat 0) (fnat 1), clamp c.b (fnat 0) (fnat 1)⟩ = rgbToLab P c

/-- 41_distance.md R152: the selected entry has the distance returned, no entry is strictly closer, and every entry before
it is strictly farther or incomparable, so ties go to the lower index. -/
def Obligations.NearestIsTheFirstSmallest : Prop :=
  ∀ (P : Params) (pal : Palette) (p : LinearColor),
    (nearest P pal p).2 = colorDifference P p (paletteEntry pal (nearest P pal p).1) ∧
    (∀ j : Fin 7, flt (colorDifference P p (paletteEntry pal j)) (nearest P pal p).2 = false) ∧
    (∀ j : Fin 7, j < (nearest P pal p).1 →
      fle (colorDifference P p (paletteEntry pal j)) (nearest P pal p).2 = false)

/-- 41_distance.md R150(a), (b): the distance of two Lab colours is symmetric bit for bit, and 0.0 where they are equal and it
is no NaN, for every lawful binding (00_scope.md R12(e) as log 4 reads it), wherever the argument of the sine in R146 is finite.
Where both distances are NaN, their equal bits are the model's choice of log 11, one NaN for all operations. -/
def Obligations.ColorDifferenceIsSymmetric : Prop :=
  ∀ (E : Elem) (p q : LabColor) (g h1 h2 : F64), ElemLaws E →
    g = gCorrection E (fmean (chroma p.a p.b) (chroma q.a q.b)) →
    h1 = hueDeg E p.b (fmul p.a (fadd (fnat 1) g)) → h2 = hueDeg E q.b (fmul q.a (fadd (fnat 1) g)) →
    fisFinite (fmul (fdiv (hueDelta h1 h2) (fnat 2)) deg2rad) = true →
    labDifference E p q = labDifference E q p ∧
    (p = q → fisNaN (labDifference E p q) = false → labDifference E p q = fnat 0)

/-- 00_scope.md R12, as log 4 reads it, and 10_state.md R32 hold of the machine's own binding, which is otherwise free
(logs 4 and 5). -/
def Obligations.DeviceBindingMeetsItsConstraints : Prop :=
  ElemLaws elemFns ∧ paletteInUnit devicePalette = true ∧ WhiteKept params devicePalette

/-! ### Ditherer and packer -/

/-- 42_ditherer.md R188: a target is dropped exactly at column 599 for x+1, at column 0 for x-1 and at row 447 for y+1,
and a dropped write changes no cell. -/
def Obligations.OutOfRangeDiffusionIsDropped : Prop :=
  ∀ (x y : Nat) (t : KernelTap), x < Config.W → y < Config.H → t ∈ kernelTaps →
    (tapTarget x y t = none ↔ (t.dx = 1 ∧ x = 599) ∨ (t.dx = -1 ∧ x = 0) ∨ (t.dy = 1 ∧ y = 447)) ∧
    (tapTarget x y t = none → ∀ (err : LinearColor) (pix : Store F64), diffuseTap x y err pix t = some pix)

/-- 42_ditherer.md R185 to R187, R189: the kernel is the four targets of R187 with their weights and no other, and a target
inside the image is the pixel at its offset from the cursor. One pixel of the scan changes only the targets inside the image,
and each of them to its own value before plus the weighted residual, clamped; the pixel itself keeps its value; and what the packer is handed,
after the diffusion, is the index of the nearest entry to that value. -/
def Obligations.DiffusionUpdatesExactlyTheNeighbours : Prop :=
  (∀ t : KernelTap, t ∈ kernelTaps ↔
    t = ⟨1, 0, flit 4375 4⟩ ∨ t = ⟨-1, 1, flit 1875 4⟩ ∨ t = ⟨0, 1, flit 3125 4⟩ ∨ t = ⟨1, 1, flit 625 4⟩) ∧
  (∀ (x y : Nat) (t : KernelTap) (q : Nat), tapTarget x y t = some q → (q : Int) = 600 * (y + t.dy) + (x + t.dx)) ∧
  ∀ (P : Params) (pal : Palette) (rot : Bool) (sc sc' : Scan) (p e : LinearColor) (x y : Nat),
    x = sc.cursor.x.val → y = sc.cursor.y.val → scanPixel P pal rot sc = some sc' →
    readPixel sc.pix (pixelNumber x y) = some p → e = paletteEntry pal (nearest P pal p).1 →
    (∀ q, (∀ t ∈ kernelTaps, tapTarget x y t ≠ some q) → readPixel sc'.pix q = readPixel sc.pix q) ∧
    readPixel sc'.pix (pixelNumber x y) = some p ∧
    (∀ t ∈ kernelTaps, ∀ (q : Nat) (v : LinearColor), tapTarget x y t = some q → readPixel sc.pix q = some v →
      readPixel sc'.pix q = some
        ⟨diffuseChannel v.r (fsub p.r e.r) t.w, diffuseChannel v.g (fsub p.g e.g) t.w,
          diffuseChannel v.b (fsub p.b e.b) t.w⟩) ∧
    packIndex rot (nearest P pal p).1 { sc with pix := sc'.pix } = some sc'

/-- 10_state.md R38: the cursor advances in row-major order, column first, and never wraps past the last pixel. -/
def Obligations.CursorAdvancesInRowMajorOrder : Prop :=
  ∀ c : Cursor,
    (c.x.val < 599 → (cursorNext c).x.val = c.x.val + 1 ∧ (cursorNext c).y = c.y) ∧
    (c.x.val = 599 → c.y.val < 447 → (cursorNext c).x.val = 0 ∧ (cursorNext c).y.val = c.y.val + 1) ∧
    (c.x.val = 599 → c.y.val = 447 → cursorNext c = c) ∧
    (c.x.val < 599 ∨ c.y.val < 447 →
      pixelNumber (cursorNext c).x.val (cursorNext c).y.val = pixelNumber c.x.val c.y.val + 1)

/-- 43_packer.md R211: the index of an even column is latched, and the byte of the pair is the odd member's index above
it, written at the pair's position; whatever ROT180 is, the nibbles follow the logical column. -/
def Obligations.PairPacksLowThenHighNibble : Prop :=
  ∀ (rot : Bool) (i j : Fin 7) (sc sc1 sc2 : Scan) (xo : Fin Config.W), sc.cursor.x.val % 2 = 0 →
    xo.val = sc.cursor.x.val + 1 → packIndex rot i sc = some sc1 →
    packIndex rot j { sc1 with cursor := { sc1.cursor with x := xo } } = some sc2 →
    sc1.fb = sc.fb ∧
    ∃ b : Byte, (b.extractLsb' 0 4).toNat = i.val ∧ (b.extractLsb' 4 4).toNat = j.val ∧
      storeRead sc2.fb (bytePos rot sc.cursor.x.val sc.cursor.y.val) = some b ∧
      ∀ k, k ≠ bytePos rot sc.cursor.x.val sc.cursor.y.val → storeRead sc2.fb k = storeRead sc.fb k

/-- 43_packer.md R213, R214: the closed forms of the byte position, and that in both orientations the 134400 pairs map
one-to-one onto offsets 64..134463. -/
def Obligations.PairsMapOntoTheBody : Prop :=
  (∀ xe y, xe < 600 → xe % 2 = 0 → y < 448 →
    bytePos true xe y = 64 + 300 * (447 - y) + (299 - xe / 2) ∧ bytePos false xe y = 64 + 300 * y + xe / 2) ∧
  (∀ (rot : Bool) (xe y xe' y' : Nat), xe < 600 → xe % 2 = 0 → y < 448 → xe' < 600 → xe' % 2 = 0 → y' < 448 →
    bytePos rot xe y = bytePos rot xe' y' → xe = xe' ∧ y = y') ∧
  (∀ (rot : Bool) (k : Nat), 64 ≤ k → k < 134464 →
    ∃ xe y, xe < 600 ∧ xe % 2 = 0 ∧ y < 448 ∧ bytePos rot xe y = k)

/-- 43_packer.md R220, R214: the orientation reaches only the byte positions. Two scans of any number of pixels, one in each
orientation, that start from one cursor, LATCH and PIX and from frame images that agree pair by pair, complete together, with
one cursor, LATCH and PIX, and their frame images agree pair by pair: the byte at `bytePos true xe y` of the one is the byte
at `bytePos false xe y` of the other. -/
def Obligations.OrientationChangesOnlyPositions : Prop :=
  ∀ (P : Params) (pal : Palette) (n : Nat) (sc : Scan) (fbT fbF : Store Byte),
    (∀ xe y, xe < 600 → xe % 2 = 0 → y < 448 →
      storeRead fbT (bytePos true xe y) = storeRead fbF (bytePos false xe y)) →
    (scanPixels P pal true n { sc with fb := fbT }).map (fun r => (r.cursor, r.latch, r.pix)) =
      (scanPixels P pal false n { sc with fb := fbF }).map (fun r => (r.cursor, r.latch, r.pix)) ∧
    ∀ rT rF, scanPixels P pal true n { sc with fb := fbT } = some rT →
      scanPixels P pal false n { sc with fb := fbF } = some rF →
      ∀ xe y, xe < 600 → xe % 2 = 0 → y < 448 →
        storeRead rT.fb (bytePos true xe y) = storeRead rF.fb (bytePos false xe y)

/-- 43_packer.md R216: the header is 64 bytes: the magic 1A 1A FA FA, the timestamp's eight bytes little-endian, and 52
zeros. -/
def Obligations.HeaderLayout : Prop :=
  ∀ t : Word,
    (headerBytes t).length = 64 ∧
    (headerBytes t)[0]? = some 0x1A ∧ (headerBytes t)[1]? = some 0x1A ∧ (headerBytes t)[2]? = some 0xFA ∧
    (headerBytes t)[3]? = some 0xFA ∧
    (∀ k, k < 8 → (headerBytes t)[4 + k]? = some (t.extractLsb' (8 * k) 8)) ∧
    (∀ k, 12 ≤ k → k < 64 → (headerBytes t)[k]? = some 0)

/-! ### Host transactions -/

/-- 10_state.md R21: every register stands at its own offset of the map, and at no other. That PAL_6_B stands at 0x120, where
R21's formula puts it, is the model's choice of log 13: R21's last sentence, R30 and 20_memory.md R62 reserve that offset. -/
def Obligations.RegisterMapIsOneToOne : Prop :=
  ∀ (r : RegName) (a : Nat), regAt a = some r ↔ a = regOffset r

/-- 10_state.md R23, 60_exceptions.md R260: the fields of STATUS, its reserved bits, which read 0, and the four error
codes. -/
def Obligations.StatusWordLayout : Prop :=
  ∀ st : Status,
    (statusWord st).getLsbD 0 = st.busy ∧ (statusWord st).getLsbD 1 = st.done ∧ (statusWord st).getLsbD 2 = st.ovr ∧
    (statusWord st).extractLsb' 3 5 = 0 ∧ (statusWord st).extractLsb' 16 48 = 0 ∧
    (st.err = .none → (statusWord st).extractLsb' 8 8 = 0) ∧ (st.err = .illegalCmd → (statusWord st).extractLsb' 8 8 = 1) ∧
    (st.err = .dimMismatch → (statusWord st).extractLsb' 8 8 = 2) ∧
    (st.err = .nonfiniteOperand → (statusWord st).extractLsb' 8 8 = 3)

/-- 44_control.md R243: what a host read of each register returns, in every state; nothing changes but the host's own replies
and, for an operand register, or with BUSY = 0 a result register, that no write has reached, the record of READ_UNWRITTEN:
that the machine goes on there with the value held is the model's choice of log 1. With BUSY = 1 a result register is
ResultReadsWhileBusyAreFree's. At 0x120, PAL_6_B by R21's formula and reserved by R30, BAD_ACCESS is recorded too,
the model's choice of log 13. -/
def Obligations.RegisterReadsReturnTheirValue : Prop :=
  ∀ s : State,
    hostRead 0x000 8 s = .next { s with replies := 0 :: s.replies } ∧
    hostRead 0x008 8 s = .next { s with replies := statusWord s.status :: s.replies } ∧
    hostRead 0x010 8 s = .next { s with replies := s.config :: s.replies } ∧
    hostRead 0x018 8 s = .next { s with replies := s.srcW :: s.replies } ∧
    hostRead 0x020 8 s = .next { s with replies := s.srcH :: s.replies } ∧
    hostRead 0x028 8 s = .next { s with replies := s.timestamp :: s.replies } ∧
    (∀ p ∈ [((0x030 : Nat), s.opaR), (0x038, s.opaG), (0x040, s.opaB), (0x048, s.opbR), (0x050, s.opbG), (0x058, s.opbB)],
      RegisterAnswers p.1 p.2 s) ∧
    (s.status.busy = false →
      ∀ p ∈ [((0x060 : Nat), s.res0), (0x068, s.res1), (0x070, s.res2)], RegisterAnswers p.1 p.2 s) ∧
    (∀ i : Fin 7,
      hostRead (0x080 + 0x18 * i.val) 8 s = .next { s with replies := (paletteEntry s.palette i).r :: s.replies } ∧
      hostRead (0x088 + 0x18 * i.val) 8 s = .next { s with replies := (paletteEntry s.palette i).g :: s.replies } ∧
      (i.val < 6 →
        hostRead (0x090 + 0x18 * i.val) 8 s = .next { s with replies := (paletteEntry s.palette i).b :: s.replies })) ∧
    (∃ f : List Fault, (∀ g, g ∈ f ↔ g = .badAccess ∨ g ∈ s.faults) ∧
      hostRead 0x120 8 s = .next { s with replies := (paletteEntry s.palette 6).b :: s.replies, faults := f })

/-- 44_control.md R244: while BUSY = 0 a write of an input register stores the value, clears its mark and changes nothing
else. -/
def Obligations.InputWritesStoreTheirValue : Prop :=
  ∀ (s : State) (v : Word), s.status.busy = false →
    hostWrite 0x018 8 v s = .next { s with srcW := v } ∧
    hostWrite 0x020 8 v s = .next { s with srcH := v } ∧
    hostWrite 0x028 8 v s = .next { s with timestamp := v } ∧
    hostWrite 0x030 8 v s = .next { s with opaR := { value := v, unwritten := false } } ∧
    hostWrite 0x038 8 v s = .next { s with opaG := { value := v, unwritten := false } } ∧
    hostWrite 0x040 8 v s = .next { s with opaB := { value := v, unwritten := false } } ∧
    hostWrite 0x048 8 v s = .next { s with opbR := { value := v, unwritten := false } } ∧
    hostWrite 0x050 8 v s = .next { s with opbG := { value := v, unwritten := false } } ∧
    hostWrite 0x058 8 v s = .next { s with opbB := { value := v, unwritten := false } }

/-- 70_reset_and_hazards.md R293: a host write to SRC, SRC_W, SRC_H, TIMESTAMP, OPA_* or OPB_* while BUSY = 1 is the model
fault HOST_HAZARD. -/
def Obligations.InputWritesWhileBusyAreHazards : Prop :=
  ∀ (s : State) (v : Word), s.status.busy = true →
    (∀ a, a ∈ [0x018, 0x020, 0x028, 0x030, 0x038, 0x040, 0x048, 0x050, 0x058] →
      hostWrite a 8 v s = .fault .hostHazard) ∧
    (∀ a n, (n = 1 ∨ n = 2 ∨ n = 4 ∨ n = 8) → a % n = 0 → 0x100000 ≤ a → a + n - 1 ≤ 0x2067FF →
      hostWrite a n v s = .fault .hostHazard)

/-- 44_control.md R244, R246: writes to STATUS, CONFIG, RES*, PAL_* and FRAME are ignored, busy or not. At 0x120,
PAL_6_B by R21's formula and reserved by R30, the ignored write records BAD_ACCESS, the model's choice of log 13. -/
def Obligations.WritesToReadOnlyStateAreIgnored : Prop :=
  ∀ (s : State) (v : Word),
    (∀ a, a ∈ [0x008, 0x010, 0x060, 0x068, 0x070] → hostWrite a 8 v s = .next s) ∧
    (∀ (i : Fin 7) (c : Fin 3), i.val < 6 ∨ c.val < 2 →
      hostWrite (0x080 + 0x18 * i.val + 8 * c.val) 8 v s = .next s) ∧
    (∃ f : List Fault, (∀ g, g ∈ f ↔ g = .badAccess ∨ g ∈ s.faults) ∧
      hostWrite 0x120 8 v s = .next { s with faults := f }) ∧
    (∀ a n, (n = 1 ∨ n = 2 ∨ n = 4 ∨ n = 8) → a % n = 0 → 0x300000 ≤ a → a + n - 1 ≤ 0x320D3F →
      hostWrite a n v s = .next s)

/-- 44_control.md R247, 10_state.md R30: every other host transaction of the block is BAD_ACCESS: no register read or written
whole, and no aligned access of an admitted width inside a window. Offset 0x120, reserved by R30 and PAL_6_B by
R21's formula, counts as the register's, where BAD_ACCESS is recorded and the access answers: the model's choice of log 13. An offset outside the block is refused
(20_memory.md R61). -/
def Obligations.OtherAccessesAreBad : Prop :=
  (∀ (a n : Nat) (v : Word) (s : State), a < 0x400000 →
    (n = 8 → ∀ r, a ≠ regOffset r) →
    ((n = 1 ∨ n = 2 ∨ n = 4 ∨ n = 8) → a % n = 0 →
      ¬(0x100000 ≤ a ∧ a + n - 1 ≤ 0x2067FF) ∧ ¬(0x300000 ≤ a ∧ a + n - 1 ≤ 0x320D3F)) →
    hostRead a n s = .fault .badAccess ∧ hostWrite a n v s = .fault .badAccess) ∧
  (∀ (a n : Nat) (v : Word) (s : State), 0x400000 ≤ a →
    hostRead a n s = .refused .outsideBlock ∧ hostWrite a n v s = .refused .outsideBlock)

/-- 70_reset_and_hazards.md R294: a host read of RES0..RES2 or FRAME while BUSY = 1 returns some value of the read's width,
with no side effect on the block and no fault recorded; only the counter of free values moves (log 7). -/
def Obligations.ResultReadsWhileBusyAreFree : Prop :=
  ∀ s : State, s.status.busy = true →
    (∀ a, a ∈ [0x060, 0x068, 0x070] →
      ∃ v : Word, hostRead a 8 s = .next { s with replies := v :: s.replies, draws := s.draws + 1 }) ∧
    (∀ a n, (n = 1 ∨ n = 2 ∨ n = 4 ∨ n = 8) → a % n = 0 → 0x300000 ≤ a → a + n - 1 ≤ 0x320D3F →
      ∃ v : Word, v.toNat < 2 ^ (8 * n) ∧
        hostRead a n s = .next { s with replies := v :: s.replies, draws := s.draws + 1 })

/-- 44_control.md R245, R246; 20_memory.md R63(b): an admitted SRC write while BUSY = 0 stores byte `k` of the value at
offset `a + k` and no other byte. An admitted read of SRC, busy or not, or of FRAME while BUSY = 0, returns the bytes it
covers as one little-endian value and changes nothing but the host's replies; where one of them is unwritten it is the model
fault READ_UNWRITTEN (10_state.md R41). So the bytes of a write read back. -/
def Obligations.SourceWritesReadBackLittleEndian : Prop :=
  (∀ (s : State) (a n : Nat) (v : Word), s.status.busy = false → (n = 1 ∨ n = 2 ∨ n = 4 ∨ n = 8) → a % n = 0 →
    0x100000 ≤ a → a + n - 1 ≤ 0x2067FF →
    ∃ m : List Host.Cell, hostWrite a n v s = .next { s with mem := m } ∧
      (∀ k, k < n → storeRead m (a + k) = some (v.extractLsb' (8 * k) 8)) ∧
      (∀ b, b < a ∨ a + n ≤ b → storeRead m b = storeRead s.mem b)) ∧
  (∀ (s : State) (a n : Nat) (v : Word), (n = 1 ∨ n = 2 ∨ n = 4 ∨ n = 8) → a % n = 0 →
    (0x100000 ≤ a ∧ a + n - 1 ≤ 0x2067FF) ∨ (s.status.busy = false ∧ 0x300000 ≤ a ∧ a + n - 1 ≤ 0x320D3F) →
    ((∀ k, k < n → storeRead s.mem (a + k) = some (v.extractLsb' (8 * k) 8)) →
      hostRead a n s = .next { s with replies := BitVec.ofNat 64 (v.toNat % 2 ^ (8 * n)) :: s.replies }) ∧
    ((∃ k, k < n ∧ storeRead s.mem (a + k) = none) → hostRead a n s = .fault .readUnwritten))

/-- 30_encoding.md R99: `poll` reads STATUS once a step, and stays at the head of the host's queue exactly while the value
read has bit [0] set. The queue is the model's choice of log 10, the passing of the turn that of log 9. -/
def Obligations.PollRepeatsWhileBusy : Prop :=
  ∀ (s : State) (rest : List HostOp), s.turn = .host → s.host = .poll :: rest →
    (s.status.busy = true → step s = .next (nextTurn { s with replies := statusWord s.status :: s.replies })) ∧
    (s.status.busy = false →
      step s = .next (nextTurn { s with host := rest, replies := statusWord s.status :: s.replies }))

/-! ### Reset and invariants -/

/-- 10_state.md R42: the reset table. The value under an unwritten mark, the cursor and the model's own fields are not in
it and are not stated. -/
def Obligations.ResetTable : Prop :=
  statusWord State.reset.status = 0 ∧ State.reset.config = 1 ∧
  State.reset.srcW = 0 ∧ State.reset.srcH = 0 ∧ State.reset.timestamp = 0 ∧
  (∀ r ∈ operandRegsAB State.reset, r.unwritten = true) ∧
  State.reset.res0.unwritten = true ∧ State.reset.res1.unwritten = true ∧ State.reset.res2.unwritten = true ∧
  State.reset.palette = devicePalette ∧
  (∀ a, storeRead State.reset.mem a = none) ∧ (∀ k, storeRead State.reset.scan.pix k = none) ∧
  State.reset.phase = .idle ∧ State.reset.active = none ∧ State.reset.scan.latch.unwritten = true ∧
  State.reset.faults = []

/-- 70_reset_and_hazards.md R290: a reset, also while a command runs, leaves IDLE, STATUS 0, every data cell
unwritten, SRC_W, SRC_H and TIMESTAMP 0 (R42) and the parameters as they are, and abandons the command: no completion step of
it happens. The faults stay recorded, the model's choice of log 14; that the reset is an entry of the host's queue is the
model's choice of log 23. -/
def Obligations.ResetAbandonsTheRunningCommand : Prop :=
  ∀ (s : State) (rest : List HostOp), s.turn = .host → s.host = .reset :: rest →
    ∃ t, step s = .next t ∧ t.phase = .idle ∧ t.active = none ∧ statusWord t.status = 0 ∧
      (∀ a, storeRead t.mem a = none) ∧ (∀ k, storeRead t.scan.pix k = none) ∧
      (∀ r ∈ operandRegsAB t, r.unwritten = true) ∧ t.res0.unwritten = true ∧ t.res1.unwritten = true ∧
      t.res2.unwritten = true ∧ t.palette = devicePalette ∧ t.config = configReset ∧ t.srcW = 0 ∧ t.srcH = 0 ∧
      t.timestamp = 0 ∧ t.scan.latch.unwritten = true ∧ t.host = rest ∧ t.faults = s.faults

/-- Every invariant below holds right after reset. -/
def Obligations.ResetMeetsTheInvariants : Prop :=
  StoresCanonical State.reset ∧ StoresInRange State.reset ∧ EngineConsistent State.reset ∧
  ParametersFixed State.reset

/-- Every step keeps the canonical form of the windows, of PIX and of the frame image, from every state that has it. -/
def Obligations.StepKeepsStoresCanonical : Prop :=
  ∀ s t : State, StoresCanonical s → step s = .next t → StoresCanonical t

/-- Every step keeps it so that only cells that exist are listed (10_state.md R33 to R35; 20_memory.md R62). -/
def Obligations.StepKeepsStoresInRange : Prop :=
  ∀ s t : State, StoresInRange s → step s = .next t → StoresInRange t

/-- 10_state.md R36, R23: every step keeps it so that the phase is RUN exactly when BUSY = 1, that BUSY implies not DONE,
and that a running command is one that can run, with an engine step to go and the registers it reads written and finite
(60_exceptions.md R268, 20_memory.md R70). -/
def Obligations.StepKeepsEngineConsistent : Prop :=
  ∀ s t : State, EngineConsistent s → step s = .next t → EngineConsistent t

/-- 10_state.md R24, R29, R31: no step changes the palette or CONFIG. -/
def Obligations.StepKeepsParameters : Prop :=
  ∀ s t : State, ParametersFixed s → step s = .next t → ParametersFixed t

/-- 10_state.md R41, 00_scope.md R14: a recorded fault is never removed. That a step records READ_UNWRITTEN and
BAD_ACCESS alone, the other faults ending it, and that a reset keeps the record, are the model's choices (logs 1, 13, 14 and
16). -/
def Obligations.StepNeverRemovesAFault : Prop :=
  ∀ s t : State, step s = .next t →
    (∀ f, f ∈ s.faults → f ∈ t.faults) ∧ (∀ f, f ∈ t.faults → f ∈ s.faults ∨ f = .readUnwritten ∨ f = .badAccess)
end

