-- ==== Sys2Proof/Laws/State.lean ====
section
/-! SUPPORT. One lemma per field per update of the state, so that no proof unfolds a record update. -/

namespace Sys2Proof.Machine

@[simp] theorem recordFault_status (f : Fault) (s : State) : (recordFault f s).status = s.status := by unfold recordFault; split <;> rfl
@[simp] theorem recordFault_config (f : Fault) (s : State) : (recordFault f s).config = s.config := by unfold recordFault; split <;> rfl
@[simp] theorem recordFault_srcW (f : Fault) (s : State) : (recordFault f s).srcW = s.srcW := by unfold recordFault; split <;> rfl
@[simp] theorem recordFault_srcH (f : Fault) (s : State) : (recordFault f s).srcH = s.srcH := by unfold recordFault; split <;> rfl
@[simp] theorem recordFault_timestamp (f : Fault) (s : State) : (recordFault f s).timestamp = s.timestamp := by unfold recordFault; split <;> rfl
@[simp] theorem recordFault_opaR (f : Fault) (s : State) : (recordFault f s).opaR = s.opaR := by unfold recordFault; split <;> rfl
@[simp] theorem recordFault_opaG (f : Fault) (s : State) : (recordFault f s).opaG = s.opaG := by unfold recordFault; split <;> rfl
@[simp] theorem recordFault_opaB (f : Fault) (s : State) : (recordFault f s).opaB = s.opaB := by unfold recordFault; split <;> rfl
@[simp] theorem recordFault_opbR (f : Fault) (s : State) : (recordFault f s).opbR = s.opbR := by unfold recordFault; split <;> rfl
@[simp] theorem recordFault_opbG (f : Fault) (s : State) : (recordFault f s).opbG = s.opbG := by unfold recordFault; split <;> rfl
@[simp] theorem recordFault_opbB (f : Fault) (s : State) : (recordFault f s).opbB = s.opbB := by unfold recordFault; split <;> rfl
@[simp] theorem recordFault_res0 (f : Fault) (s : State) : (recordFault f s).res0 = s.res0 := by unfold recordFault; split <;> rfl
@[simp] theorem recordFault_res1 (f : Fault) (s : State) : (recordFault f s).res1 = s.res1 := by unfold recordFault; split <;> rfl
@[simp] theorem recordFault_res2 (f : Fault) (s : State) : (recordFault f s).res2 = s.res2 := by unfold recordFault; split <;> rfl
@[simp] theorem recordFault_palette (f : Fault) (s : State) : (recordFault f s).palette = s.palette := by unfold recordFault; split <;> rfl
@[simp] theorem recordFault_mem (f : Fault) (s : State) : (recordFault f s).mem = s.mem := by unfold recordFault; split <;> rfl
@[simp] theorem recordFault_phase (f : Fault) (s : State) : (recordFault f s).phase = s.phase := by unfold recordFault; split <;> rfl
@[simp] theorem recordFault_active (f : Fault) (s : State) : (recordFault f s).active = s.active := by unfold recordFault; split <;> rfl
@[simp] theorem recordFault_scan (f : Fault) (s : State) : (recordFault f s).scan = s.scan := by unfold recordFault; split <;> rfl
@[simp] theorem recordFault_latLeft (f : Fault) (s : State) : (recordFault f s).latLeft = s.latLeft := by unfold recordFault; split <;> rfl
@[simp] theorem recordFault_draws (f : Fault) (s : State) : (recordFault f s).draws = s.draws := by unfold recordFault; split <;> rfl
@[simp] theorem recordFault_turn (f : Fault) (s : State) : (recordFault f s).turn = s.turn := by unfold recordFault; split <;> rfl
@[simp] theorem recordFault_schedule (f : Fault) (s : State) : (recordFault f s).schedule = s.schedule := by unfold recordFault; split <;> rfl
@[simp] theorem recordFault_hostTurns (f : Fault) (s : State) : (recordFault f s).hostTurns = s.hostTurns := by unfold recordFault; split <;> rfl
@[simp] theorem recordFault_host (f : Fault) (s : State) : (recordFault f s).host = s.host := by unfold recordFault; split <;> rfl
@[simp] theorem recordFault_replies (f : Fault) (s : State) : (recordFault f s).replies = s.replies := by unfold recordFault; split <;> rfl

@[simp] theorem noteRead_status (regs : List DataReg) (s : State) : (noteRead regs s).status = s.status := by unfold noteRead; split <;> simp
@[simp] theorem noteRead_config (regs : List DataReg) (s : State) : (noteRead regs s).config = s.config := by unfold noteRead; split <;> simp
@[simp] theorem noteRead_srcW (regs : List DataReg) (s : State) : (noteRead regs s).srcW = s.srcW := by unfold noteRead; split <;> simp
@[simp] theorem noteRead_srcH (regs : List DataReg) (s : State) : (noteRead regs s).srcH = s.srcH := by unfold noteRead; split <;> simp
@[simp] theorem noteRead_timestamp (regs : List DataReg) (s : State) : (noteRead regs s).timestamp = s.timestamp := by unfold noteRead; split <;> simp
@[simp] theorem noteRead_opaR (regs : List DataReg) (s : State) : (noteRead regs s).opaR = s.opaR := by unfold noteRead; split <;> simp
@[simp] theorem noteRead_opaG (regs : List DataReg) (s : State) : (noteRead regs s).opaG = s.opaG := by unfold noteRead; split <;> simp
@[simp] theorem noteRead_opaB (regs : List DataReg) (s : State) : (noteRead regs s).opaB = s.opaB := by unfold noteRead; split <;> simp
@[simp] theorem noteRead_opbR (regs : List DataReg) (s : State) : (noteRead regs s).opbR = s.opbR := by unfold noteRead; split <;> simp
@[simp] theorem noteRead_opbG (regs : List DataReg) (s : State) : (noteRead regs s).opbG = s.opbG := by unfold noteRead; split <;> simp
@[simp] theorem noteRead_opbB (regs : List DataReg) (s : State) : (noteRead regs s).opbB = s.opbB := by unfold noteRead; split <;> simp
@[simp] theorem noteRead_res0 (regs : List DataReg) (s : State) : (noteRead regs s).res0 = s.res0 := by unfold noteRead; split <;> simp
@[simp] theorem noteRead_res1 (regs : List DataReg) (s : State) : (noteRead regs s).res1 = s.res1 := by unfold noteRead; split <;> simp
@[simp] theorem noteRead_res2 (regs : List DataReg) (s : State) : (noteRead regs s).res2 = s.res2 := by unfold noteRead; split <;> simp
@[simp] theorem noteRead_palette (regs : List DataReg) (s : State) : (noteRead regs s).palette = s.palette := by unfold noteRead; split <;> simp
@[simp] theorem noteRead_mem (regs : List DataReg) (s : State) : (noteRead regs s).mem = s.mem := by unfold noteRead; split <;> simp
@[simp] theorem noteRead_phase (regs : List DataReg) (s : State) : (noteRead regs s).phase = s.phase := by unfold noteRead; split <;> simp
@[simp] theorem noteRead_active (regs : List DataReg) (s : State) : (noteRead regs s).active = s.active := by unfold noteRead; split <;> simp
@[simp] theorem noteRead_scan (regs : List DataReg) (s : State) : (noteRead regs s).scan = s.scan := by unfold noteRead; split <;> simp
@[simp] theorem noteRead_latLeft (regs : List DataReg) (s : State) : (noteRead regs s).latLeft = s.latLeft := by unfold noteRead; split <;> simp
@[simp] theorem noteRead_draws (regs : List DataReg) (s : State) : (noteRead regs s).draws = s.draws := by unfold noteRead; split <;> simp
@[simp] theorem noteRead_turn (regs : List DataReg) (s : State) : (noteRead regs s).turn = s.turn := by unfold noteRead; split <;> simp
@[simp] theorem noteRead_schedule (regs : List DataReg) (s : State) : (noteRead regs s).schedule = s.schedule := by unfold noteRead; split <;> simp
@[simp] theorem noteRead_hostTurns (regs : List DataReg) (s : State) : (noteRead regs s).hostTurns = s.hostTurns := by unfold noteRead; split <;> simp
@[simp] theorem noteRead_host (regs : List DataReg) (s : State) : (noteRead regs s).host = s.host := by unfold noteRead; split <;> simp
@[simp] theorem noteRead_replies (regs : List DataReg) (s : State) : (noteRead regs s).replies = s.replies := by unfold noteRead; split <;> simp

@[simp] theorem overrun_status (s : State) : (overrun s).status = statusOverrun s.status := rfl
@[simp] theorem overrun_config (s : State) : (overrun s).config = s.config := rfl
@[simp] theorem overrun_srcW (s : State) : (overrun s).srcW = s.srcW := rfl
@[simp] theorem overrun_srcH (s : State) : (overrun s).srcH = s.srcH := rfl
@[simp] theorem overrun_timestamp (s : State) : (overrun s).timestamp = s.timestamp := rfl
@[simp] theorem overrun_opaR (s : State) : (overrun s).opaR = s.opaR := rfl
@[simp] theorem overrun_opaG (s : State) : (overrun s).opaG = s.opaG := rfl
@[simp] theorem overrun_opaB (s : State) : (overrun s).opaB = s.opaB := rfl
@[simp] theorem overrun_opbR (s : State) : (overrun s).opbR = s.opbR := rfl
@[simp] theorem overrun_opbG (s : State) : (overrun s).opbG = s.opbG := rfl
@[simp] theorem overrun_opbB (s : State) : (overrun s).opbB = s.opbB := rfl
@[simp] theorem overrun_res0 (s : State) : (overrun s).res0 = s.res0 := rfl
@[simp] theorem overrun_res1 (s : State) : (overrun s).res1 = s.res1 := rfl
@[simp] theorem overrun_res2 (s : State) : (overrun s).res2 = s.res2 := rfl
@[simp] theorem overrun_palette (s : State) : (overrun s).palette = s.palette := rfl
@[simp] theorem overrun_mem (s : State) : (overrun s).mem = s.mem := rfl
@[simp] theorem overrun_phase (s : State) : (overrun s).phase = s.phase := rfl
@[simp] theorem overrun_active (s : State) : (overrun s).active = s.active := rfl
@[simp] theorem overrun_scan (s : State) : (overrun s).scan = s.scan := rfl
@[simp] theorem overrun_faults (s : State) : (overrun s).faults = s.faults := rfl
@[simp] theorem overrun_latLeft (s : State) : (overrun s).latLeft = s.latLeft := rfl
@[simp] theorem overrun_draws (s : State) : (overrun s).draws = s.draws := rfl
@[simp] theorem overrun_turn (s : State) : (overrun s).turn = s.turn := rfl
@[simp] theorem overrun_schedule (s : State) : (overrun s).schedule = s.schedule := rfl
@[simp] theorem overrun_hostTurns (s : State) : (overrun s).hostTurns = s.hostTurns := rfl
@[simp] theorem overrun_host (s : State) : (overrun s).host = s.host := rfl
@[simp] theorem overrun_replies (s : State) : (overrun s).replies = s.replies := rfl

@[simp] theorem raiseError_status (code : ErrCode) (s : State) : (raiseError code s).status = statusAnswered code s.status := rfl
@[simp] theorem raiseError_config (code : ErrCode) (s : State) : (raiseError code s).config = s.config := rfl
@[simp] theorem raiseError_srcW (code : ErrCode) (s : State) : (raiseError code s).srcW = s.srcW := rfl
@[simp] theorem raiseError_srcH (code : ErrCode) (s : State) : (raiseError code s).srcH = s.srcH := rfl
@[simp] theorem raiseError_timestamp (code : ErrCode) (s : State) : (raiseError code s).timestamp = s.timestamp := rfl
@[simp] theorem raiseError_opaR (code : ErrCode) (s : State) : (raiseError code s).opaR = s.opaR := rfl
@[simp] theorem raiseError_opaG (code : ErrCode) (s : State) : (raiseError code s).opaG = s.opaG := rfl
@[simp] theorem raiseError_opaB (code : ErrCode) (s : State) : (raiseError code s).opaB = s.opaB := rfl
@[simp] theorem raiseError_opbR (code : ErrCode) (s : State) : (raiseError code s).opbR = s.opbR := rfl
@[simp] theorem raiseError_opbG (code : ErrCode) (s : State) : (raiseError code s).opbG = s.opbG := rfl
@[simp] theorem raiseError_opbB (code : ErrCode) (s : State) : (raiseError code s).opbB = s.opbB := rfl
@[simp] theorem raiseError_res0 (code : ErrCode) (s : State) : (raiseError code s).res0 = s.res0 := rfl
@[simp] theorem raiseError_res1 (code : ErrCode) (s : State) : (raiseError code s).res1 = s.res1 := rfl
@[simp] theorem raiseError_res2 (code : ErrCode) (s : State) : (raiseError code s).res2 = s.res2 := rfl
@[simp] theorem raiseError_palette (code : ErrCode) (s : State) : (raiseError code s).palette = s.palette := rfl
@[simp] theorem raiseError_mem (code : ErrCode) (s : State) : (raiseError code s).mem = s.mem := rfl
@[simp] theorem raiseError_phase (code : ErrCode) (s : State) : (raiseError code s).phase = s.phase := rfl
@[simp] theorem raiseError_active (code : ErrCode) (s : State) : (raiseError code s).active = s.active := rfl
@[simp] theorem raiseError_scan (code : ErrCode) (s : State) : (raiseError code s).scan = s.scan := rfl
@[simp] theorem raiseError_faults (code : ErrCode) (s : State) : (raiseError code s).faults = s.faults := rfl
@[simp] theorem raiseError_latLeft (code : ErrCode) (s : State) : (raiseError code s).latLeft = s.latLeft := rfl
@[simp] theorem raiseError_draws (code : ErrCode) (s : State) : (raiseError code s).draws = s.draws := rfl
@[simp] theorem raiseError_turn (code : ErrCode) (s : State) : (raiseError code s).turn = s.turn := rfl
@[simp] theorem raiseError_schedule (code : ErrCode) (s : State) : (raiseError code s).schedule = s.schedule := rfl
@[simp] theorem raiseError_hostTurns (code : ErrCode) (s : State) : (raiseError code s).hostTurns = s.hostTurns := rfl
@[simp] theorem raiseError_host (code : ErrCode) (s : State) : (raiseError code s).host = s.host := rfl
@[simp] theorem raiseError_replies (code : ErrCode) (s : State) : (raiseError code s).replies = s.replies := rfl

@[simp] theorem unwrittenOperand_status (s : State) : (unwrittenOperand s).status = statusCleared s.status := by simp [unwrittenOperand]
@[simp] theorem unwrittenOperand_config (s : State) : (unwrittenOperand s).config = s.config := by simp [unwrittenOperand]
@[simp] theorem unwrittenOperand_srcW (s : State) : (unwrittenOperand s).srcW = s.srcW := by simp [unwrittenOperand]
@[simp] theorem unwrittenOperand_srcH (s : State) : (unwrittenOperand s).srcH = s.srcH := by simp [unwrittenOperand]
@[simp] theorem unwrittenOperand_timestamp (s : State) : (unwrittenOperand s).timestamp = s.timestamp := by simp [unwrittenOperand]
@[simp] theorem unwrittenOperand_opaR (s : State) : (unwrittenOperand s).opaR = s.opaR := by simp [unwrittenOperand]
@[simp] theorem unwrittenOperand_opaG (s : State) : (unwrittenOperand s).opaG = s.opaG := by simp [unwrittenOperand]
@[simp] theorem unwrittenOperand_opaB (s : State) : (unwrittenOperand s).opaB = s.opaB := by simp [unwrittenOperand]
@[simp] theorem unwrittenOperand_opbR (s : State) : (unwrittenOperand s).opbR = s.opbR := by simp [unwrittenOperand]
@[simp] theorem unwrittenOperand_opbG (s : State) : (unwrittenOperand s).opbG = s.opbG := by simp [unwrittenOperand]
@[simp] theorem unwrittenOperand_opbB (s : State) : (unwrittenOperand s).opbB = s.opbB := by simp [unwrittenOperand]
@[simp] theorem unwrittenOperand_res0 (s : State) : (unwrittenOperand s).res0 = s.res0 := by simp [unwrittenOperand]
@[simp] theorem unwrittenOperand_res1 (s : State) : (unwrittenOperand s).res1 = s.res1 := by simp [unwrittenOperand]
@[simp] theorem unwrittenOperand_res2 (s : State) : (unwrittenOperand s).res2 = s.res2 := by simp [unwrittenOperand]
@[simp] theorem unwrittenOperand_palette (s : State) : (unwrittenOperand s).palette = s.palette := by simp [unwrittenOperand]
@[simp] theorem unwrittenOperand_mem (s : State) : (unwrittenOperand s).mem = s.mem := by simp [unwrittenOperand]
@[simp] theorem unwrittenOperand_phase (s : State) : (unwrittenOperand s).phase = s.phase := by simp [unwrittenOperand]
@[simp] theorem unwrittenOperand_active (s : State) : (unwrittenOperand s).active = s.active := by simp [unwrittenOperand]
@[simp] theorem unwrittenOperand_scan (s : State) : (unwrittenOperand s).scan = s.scan := by simp [unwrittenOperand]
@[simp] theorem unwrittenOperand_latLeft (s : State) : (unwrittenOperand s).latLeft = s.latLeft := by simp [unwrittenOperand]
@[simp] theorem unwrittenOperand_draws (s : State) : (unwrittenOperand s).draws = s.draws := by simp [unwrittenOperand]
@[simp] theorem unwrittenOperand_turn (s : State) : (unwrittenOperand s).turn = s.turn := by simp [unwrittenOperand]
@[simp] theorem unwrittenOperand_schedule (s : State) : (unwrittenOperand s).schedule = s.schedule := by simp [unwrittenOperand]
@[simp] theorem unwrittenOperand_hostTurns (s : State) : (unwrittenOperand s).hostTurns = s.hostTurns := by simp [unwrittenOperand]
@[simp] theorem unwrittenOperand_host (s : State) : (unwrittenOperand s).host = s.host := by simp [unwrittenOperand]
@[simp] theorem unwrittenOperand_replies (s : State) : (unwrittenOperand s).replies = s.replies := by simp [unwrittenOperand]

@[simp] theorem startCommand_status (i : Instr) (s : State) : (startCommand i s).status = statusStarted s.status := rfl
@[simp] theorem startCommand_config (i : Instr) (s : State) : (startCommand i s).config = s.config := rfl
@[simp] theorem startCommand_srcW (i : Instr) (s : State) : (startCommand i s).srcW = s.srcW := rfl
@[simp] theorem startCommand_srcH (i : Instr) (s : State) : (startCommand i s).srcH = s.srcH := rfl
@[simp] theorem startCommand_timestamp (i : Instr) (s : State) : (startCommand i s).timestamp = s.timestamp := rfl
@[simp] theorem startCommand_opaR (i : Instr) (s : State) : (startCommand i s).opaR = s.opaR := rfl
@[simp] theorem startCommand_opaG (i : Instr) (s : State) : (startCommand i s).opaG = s.opaG := rfl
@[simp] theorem startCommand_opaB (i : Instr) (s : State) : (startCommand i s).opaB = s.opaB := rfl
@[simp] theorem startCommand_opbR (i : Instr) (s : State) : (startCommand i s).opbR = s.opbR := rfl
@[simp] theorem startCommand_opbG (i : Instr) (s : State) : (startCommand i s).opbG = s.opbG := rfl
@[simp] theorem startCommand_opbB (i : Instr) (s : State) : (startCommand i s).opbB = s.opbB := rfl
@[simp] theorem startCommand_res0 (i : Instr) (s : State) : (startCommand i s).res0 = s.res0 := rfl
@[simp] theorem startCommand_res1 (i : Instr) (s : State) : (startCommand i s).res1 = s.res1 := rfl
@[simp] theorem startCommand_res2 (i : Instr) (s : State) : (startCommand i s).res2 = s.res2 := rfl
@[simp] theorem startCommand_palette (i : Instr) (s : State) : (startCommand i s).palette = s.palette := rfl
@[simp] theorem startCommand_mem (i : Instr) (s : State) : (startCommand i s).mem = s.mem := rfl
@[simp] theorem startCommand_phase (i : Instr) (s : State) : (startCommand i s).phase = .run := rfl
@[simp] theorem startCommand_active (i : Instr) (s : State) : (startCommand i s).active = some i := rfl
@[simp] theorem startCommand_scan (i : Instr) (s : State) : (startCommand i s).scan = s.scan := rfl
@[simp] theorem startCommand_faults (i : Instr) (s : State) : (startCommand i s).faults = s.faults := rfl
@[simp] theorem startCommand_latLeft (i : Instr) (s : State) : (startCommand i s).latLeft = Config.latency s.draws := rfl
@[simp] theorem startCommand_draws (i : Instr) (s : State) : (startCommand i s).draws = s.draws + 1 := rfl
@[simp] theorem startCommand_turn (i : Instr) (s : State) : (startCommand i s).turn = s.turn := rfl
@[simp] theorem startCommand_schedule (i : Instr) (s : State) : (startCommand i s).schedule = s.schedule := rfl
@[simp] theorem startCommand_hostTurns (i : Instr) (s : State) : (startCommand i s).hostTurns = Config.hostTurns s.draws := rfl
@[simp] theorem startCommand_host (i : Instr) (s : State) : (startCommand i s).host = s.host := rfl
@[simp] theorem startCommand_replies (i : Instr) (s : State) : (startCommand i s).replies = s.replies := rfl

@[simp] theorem waitStep_status (s : State) : (waitStep s).status = s.status := rfl
@[simp] theorem waitStep_config (s : State) : (waitStep s).config = s.config := rfl
@[simp] theorem waitStep_srcW (s : State) : (waitStep s).srcW = s.srcW := rfl
@[simp] theorem waitStep_srcH (s : State) : (waitStep s).srcH = s.srcH := rfl
@[simp] theorem waitStep_timestamp (s : State) : (waitStep s).timestamp = s.timestamp := rfl
@[simp] theorem waitStep_opaR (s : State) : (waitStep s).opaR = s.opaR := rfl
@[simp] theorem waitStep_opaG (s : State) : (waitStep s).opaG = s.opaG := rfl
@[simp] theorem waitStep_opaB (s : State) : (waitStep s).opaB = s.opaB := rfl
@[simp] theorem waitStep_opbR (s : State) : (waitStep s).opbR = s.opbR := rfl
@[simp] theorem waitStep_opbG (s : State) : (waitStep s).opbG = s.opbG := rfl
@[simp] theorem waitStep_opbB (s : State) : (waitStep s).opbB = s.opbB := rfl
@[simp] theorem waitStep_res0 (s : State) : (waitStep s).res0 = s.res0 := rfl
@[simp] theorem waitStep_res1 (s : State) : (waitStep s).res1 = s.res1 := rfl
@[simp] theorem waitStep_res2 (s : State) : (waitStep s).res2 = s.res2 := rfl
@[simp] theorem waitStep_palette (s : State) : (waitStep s).palette = s.palette := rfl
@[simp] theorem waitStep_mem (s : State) : (waitStep s).mem = s.mem := rfl
@[simp] theorem waitStep_phase (s : State) : (waitStep s).phase = s.phase := rfl
@[simp] theorem waitStep_active (s : State) : (waitStep s).active = s.active := rfl
@[simp] theorem waitStep_scan (s : State) : (waitStep s).scan = s.scan := rfl
@[simp] theorem waitStep_faults (s : State) : (waitStep s).faults = s.faults := rfl
@[simp] theorem waitStep_latLeft (s : State) : (waitStep s).latLeft = s.latLeft - 1 := rfl
@[simp] theorem waitStep_draws (s : State) : (waitStep s).draws = s.draws := rfl
@[simp] theorem waitStep_turn (s : State) : (waitStep s).turn = s.turn := rfl
@[simp] theorem waitStep_schedule (s : State) : (waitStep s).schedule = s.schedule := rfl
@[simp] theorem waitStep_hostTurns (s : State) : (waitStep s).hostTurns = s.hostTurns := rfl
@[simp] theorem waitStep_host (s : State) : (waitStep s).host = s.host := rfl
@[simp] theorem waitStep_replies (s : State) : (waitStep s).replies = s.replies := rfl

@[simp] theorem completeCommand_status (s : State) : (completeCommand s).status = statusCompleted s.status := rfl
@[simp] theorem completeCommand_config (s : State) : (completeCommand s).config = s.config := rfl
@[simp] theorem completeCommand_srcW (s : State) : (completeCommand s).srcW = s.srcW := rfl
@[simp] theorem completeCommand_srcH (s : State) : (completeCommand s).srcH = s.srcH := rfl
@[simp] theorem completeCommand_timestamp (s : State) : (completeCommand s).timestamp = s.timestamp := rfl
@[simp] theorem completeCommand_opaR (s : State) : (completeCommand s).opaR = s.opaR := rfl
@[simp] theorem completeCommand_opaG (s : State) : (completeCommand s).opaG = s.opaG := rfl
@[simp] theorem completeCommand_opaB (s : State) : (completeCommand s).opaB = s.opaB := rfl
@[simp] theorem completeCommand_opbR (s : State) : (completeCommand s).opbR = s.opbR := rfl
@[simp] theorem completeCommand_opbG (s : State) : (completeCommand s).opbG = s.opbG := rfl
@[simp] theorem completeCommand_opbB (s : State) : (completeCommand s).opbB = s.opbB := rfl
@[simp] theorem completeCommand_res0 (s : State) : (completeCommand s).res0 = s.res0 := rfl
@[simp] theorem completeCommand_res1 (s : State) : (completeCommand s).res1 = s.res1 := rfl
@[simp] theorem completeCommand_res2 (s : State) : (completeCommand s).res2 = s.res2 := rfl
@[simp] theorem completeCommand_palette (s : State) : (completeCommand s).palette = s.palette := rfl
@[simp] theorem completeCommand_mem (s : State) : (completeCommand s).mem = s.mem := rfl
@[simp] theorem completeCommand_phase (s : State) : (completeCommand s).phase = .idle := rfl
@[simp] theorem completeCommand_active (s : State) : (completeCommand s).active = s.active := rfl
@[simp] theorem completeCommand_scan (s : State) : (completeCommand s).scan = s.scan := rfl
@[simp] theorem completeCommand_faults (s : State) : (completeCommand s).faults = s.faults := rfl
@[simp] theorem completeCommand_latLeft (s : State) : (completeCommand s).latLeft = 0 := rfl
@[simp] theorem completeCommand_draws (s : State) : (completeCommand s).draws = s.draws := rfl
@[simp] theorem completeCommand_turn (s : State) : (completeCommand s).turn = s.turn := rfl
@[simp] theorem completeCommand_schedule (s : State) : (completeCommand s).schedule = s.schedule := rfl
@[simp] theorem completeCommand_hostTurns (s : State) : (completeCommand s).hostTurns = s.hostTurns := rfl
@[simp] theorem completeCommand_host (s : State) : (completeCommand s).host = s.host := rfl
@[simp] theorem completeCommand_replies (s : State) : (completeCommand s).replies = s.replies := rfl

@[simp] theorem writeResults_status (r : Results) (s : State) : (writeResults r s).status = s.status := rfl
@[simp] theorem writeResults_config (r : Results) (s : State) : (writeResults r s).config = s.config := rfl
@[simp] theorem writeResults_srcW (r : Results) (s : State) : (writeResults r s).srcW = s.srcW := rfl
@[simp] theorem writeResults_srcH (r : Results) (s : State) : (writeResults r s).srcH = s.srcH := rfl
@[simp] theorem writeResults_timestamp (r : Results) (s : State) : (writeResults r s).timestamp = s.timestamp := rfl
@[simp] theorem writeResults_opaR (r : Results) (s : State) : (writeResults r s).opaR = s.opaR := rfl
@[simp] theorem writeResults_opaG (r : Results) (s : State) : (writeResults r s).opaG = s.opaG := rfl
@[simp] theorem writeResults_opaB (r : Results) (s : State) : (writeResults r s).opaB = s.opaB := rfl
@[simp] theorem writeResults_opbR (r : Results) (s : State) : (writeResults r s).opbR = s.opbR := rfl
@[simp] theorem writeResults_opbG (r : Results) (s : State) : (writeResults r s).opbG = s.opbG := rfl
@[simp] theorem writeResults_opbB (r : Results) (s : State) : (writeResults r s).opbB = s.opbB := rfl
@[simp] theorem writeResults_res0 (r : Results) (s : State) : (writeResults r s).res0 = writtenReg r.r0 := rfl
@[simp] theorem writeResults_res1 (r : Results) (s : State) : (writeResults r s).res1 = writtenReg r.r1 := rfl
@[simp] theorem writeResults_res2 (r : Results) (s : State) : (writeResults r s).res2 = writtenReg r.r2 := rfl
@[simp] theorem writeResults_palette (r : Results) (s : State) : (writeResults r s).palette = s.palette := rfl
@[simp] theorem writeResults_mem (r : Results) (s : State) : (writeResults r s).mem = s.mem := rfl
@[simp] theorem writeResults_phase (r : Results) (s : State) : (writeResults r s).phase = s.phase := rfl
@[simp] theorem writeResults_active (r : Results) (s : State) : (writeResults r s).active = s.active := rfl
@[simp] theorem writeResults_scan (r : Results) (s : State) : (writeResults r s).scan = s.scan := rfl
@[simp] theorem writeResults_faults (r : Results) (s : State) : (writeResults r s).faults = s.faults := rfl
@[simp] theorem writeResults_latLeft (r : Results) (s : State) : (writeResults r s).latLeft = s.latLeft := rfl
@[simp] theorem writeResults_draws (r : Results) (s : State) : (writeResults r s).draws = s.draws := rfl
@[simp] theorem writeResults_turn (r : Results) (s : State) : (writeResults r s).turn = s.turn := rfl
@[simp] theorem writeResults_schedule (r : Results) (s : State) : (writeResults r s).schedule = s.schedule := rfl
@[simp] theorem writeResults_hostTurns (r : Results) (s : State) : (writeResults r s).hostTurns = s.hostTurns := rfl
@[simp] theorem writeResults_host (r : Results) (s : State) : (writeResults r s).host = s.host := rfl
@[simp] theorem writeResults_replies (r : Results) (s : State) : (writeResults r s).replies = s.replies := rfl

@[simp] theorem completeDirect_status (regs : List DataReg) (r : Results) (s : State) : (completeDirect regs r s).status = statusCompleted s.status := by simp [completeDirect]
@[simp] theorem completeDirect_config (regs : List DataReg) (r : Results) (s : State) : (completeDirect regs r s).config = s.config := by simp [completeDirect]
@[simp] theorem completeDirect_srcW (regs : List DataReg) (r : Results) (s : State) : (completeDirect regs r s).srcW = s.srcW := by simp [completeDirect]
@[simp] theorem completeDirect_srcH (regs : List DataReg) (r : Results) (s : State) : (completeDirect regs r s).srcH = s.srcH := by simp [completeDirect]
@[simp] theorem completeDirect_timestamp (regs : List DataReg) (r : Results) (s : State) : (completeDirect regs r s).timestamp = s.timestamp := by simp [completeDirect]
@[simp] theorem completeDirect_opaR (regs : List DataReg) (r : Results) (s : State) : (completeDirect regs r s).opaR = s.opaR := by simp [completeDirect]
@[simp] theorem completeDirect_opaG (regs : List DataReg) (r : Results) (s : State) : (completeDirect regs r s).opaG = s.opaG := by simp [completeDirect]
@[simp] theorem completeDirect_opaB (regs : List DataReg) (r : Results) (s : State) : (completeDirect regs r s).opaB = s.opaB := by simp [completeDirect]
@[simp] theorem completeDirect_opbR (regs : List DataReg) (r : Results) (s : State) : (completeDirect regs r s).opbR = s.opbR := by simp [completeDirect]
@[simp] theorem completeDirect_opbG (regs : List DataReg) (r : Results) (s : State) : (completeDirect regs r s).opbG = s.opbG := by simp [completeDirect]
@[simp] theorem completeDirect_opbB (regs : List DataReg) (r : Results) (s : State) : (completeDirect regs r s).opbB = s.opbB := by simp [completeDirect]
@[simp] theorem completeDirect_res0 (regs : List DataReg) (r : Results) (s : State) : (completeDirect regs r s).res0 = writtenReg r.r0 := by simp [completeDirect]
@[simp] theorem completeDirect_res1 (regs : List DataReg) (r : Results) (s : State) : (completeDirect regs r s).res1 = writtenReg r.r1 := by simp [completeDirect]
@[simp] theorem completeDirect_res2 (regs : List DataReg) (r : Results) (s : State) : (completeDirect regs r s).res2 = writtenReg r.r2 := by simp [completeDirect]
@[simp] theorem completeDirect_palette (regs : List DataReg) (r : Results) (s : State) : (completeDirect regs r s).palette = s.palette := by simp [completeDirect]
@[simp] theorem completeDirect_mem (regs : List DataReg) (r : Results) (s : State) : (completeDirect regs r s).mem = s.mem := by simp [completeDirect]
@[simp] theorem completeDirect_phase (regs : List DataReg) (r : Results) (s : State) : (completeDirect regs r s).phase = .idle := by simp [completeDirect]
@[simp] theorem completeDirect_active (regs : List DataReg) (r : Results) (s : State) : (completeDirect regs r s).active = s.active := by simp [completeDirect]
@[simp] theorem completeDirect_scan (regs : List DataReg) (r : Results) (s : State) : (completeDirect regs r s).scan = s.scan := by simp [completeDirect]
@[simp] theorem completeDirect_latLeft (regs : List DataReg) (r : Results) (s : State) : (completeDirect regs r s).latLeft = 0 := by simp [completeDirect]
@[simp] theorem completeDirect_draws (regs : List DataReg) (r : Results) (s : State) : (completeDirect regs r s).draws = s.draws := by simp [completeDirect]
@[simp] theorem completeDirect_turn (regs : List DataReg) (r : Results) (s : State) : (completeDirect regs r s).turn = s.turn := by simp [completeDirect]
@[simp] theorem completeDirect_schedule (regs : List DataReg) (r : Results) (s : State) : (completeDirect regs r s).schedule = s.schedule := by simp [completeDirect]
@[simp] theorem completeDirect_hostTurns (regs : List DataReg) (r : Results) (s : State) : (completeDirect regs r s).hostTurns = s.hostTurns := by simp [completeDirect]
@[simp] theorem completeDirect_host (regs : List DataReg) (r : Results) (s : State) : (completeDirect regs r s).host = s.host := by simp [completeDirect]
@[simp] theorem completeDirect_replies (regs : List DataReg) (r : Results) (s : State) : (completeDirect regs r s).replies = s.replies := by simp [completeDirect]

@[simp] theorem finishConvert_status (sc : Scan) (s : State) : (finishConvert sc s).status = statusCompleted s.status := rfl
@[simp] theorem finishConvert_config (sc : Scan) (s : State) : (finishConvert sc s).config = s.config := rfl
@[simp] theorem finishConvert_srcW (sc : Scan) (s : State) : (finishConvert sc s).srcW = s.srcW := rfl
@[simp] theorem finishConvert_srcH (sc : Scan) (s : State) : (finishConvert sc s).srcH = s.srcH := rfl
@[simp] theorem finishConvert_timestamp (sc : Scan) (s : State) : (finishConvert sc s).timestamp = s.timestamp := rfl
@[simp] theorem finishConvert_opaR (sc : Scan) (s : State) : (finishConvert sc s).opaR = s.opaR := rfl
@[simp] theorem finishConvert_opaG (sc : Scan) (s : State) : (finishConvert sc s).opaG = s.opaG := rfl
@[simp] theorem finishConvert_opaB (sc : Scan) (s : State) : (finishConvert sc s).opaB = s.opaB := rfl
@[simp] theorem finishConvert_opbR (sc : Scan) (s : State) : (finishConvert sc s).opbR = s.opbR := rfl
@[simp] theorem finishConvert_opbG (sc : Scan) (s : State) : (finishConvert sc s).opbG = s.opbG := rfl
@[simp] theorem finishConvert_opbB (sc : Scan) (s : State) : (finishConvert sc s).opbB = s.opbB := rfl
@[simp] theorem finishConvert_res0 (sc : Scan) (s : State) : (finishConvert sc s).res0 = s.res0 := rfl
@[simp] theorem finishConvert_res1 (sc : Scan) (s : State) : (finishConvert sc s).res1 = s.res1 := rfl
@[simp] theorem finishConvert_res2 (sc : Scan) (s : State) : (finishConvert sc s).res2 = s.res2 := rfl
@[simp] theorem finishConvert_palette (sc : Scan) (s : State) : (finishConvert sc s).palette = s.palette := rfl
@[simp] theorem finishConvert_phase (sc : Scan) (s : State) : (finishConvert sc s).phase = .idle := rfl
@[simp] theorem finishConvert_active (sc : Scan) (s : State) : (finishConvert sc s).active = s.active := rfl
@[simp] theorem finishConvert_faults (sc : Scan) (s : State) : (finishConvert sc s).faults = s.faults := rfl
@[simp] theorem finishConvert_latLeft (sc : Scan) (s : State) : (finishConvert sc s).latLeft = 0 := rfl
@[simp] theorem finishConvert_draws (sc : Scan) (s : State) : (finishConvert sc s).draws = s.draws := rfl
@[simp] theorem finishConvert_turn (sc : Scan) (s : State) : (finishConvert sc s).turn = s.turn := rfl
@[simp] theorem finishConvert_schedule (sc : Scan) (s : State) : (finishConvert sc s).schedule = s.schedule := rfl
@[simp] theorem finishConvert_hostTurns (sc : Scan) (s : State) : (finishConvert sc s).hostTurns = s.hostTurns := rfl
@[simp] theorem finishConvert_host (sc : Scan) (s : State) : (finishConvert sc s).host = s.host := rfl
@[simp] theorem finishConvert_replies (sc : Scan) (s : State) : (finishConvert sc s).replies = s.replies := rfl

@[simp] theorem reply_status (v : Word) (s : State) : (reply v s).status = s.status := rfl
@[simp] theorem reply_config (v : Word) (s : State) : (reply v s).config = s.config := rfl
@[simp] theorem reply_srcW (v : Word) (s : State) : (reply v s).srcW = s.srcW := rfl
@[simp] theorem reply_srcH (v : Word) (s : State) : (reply v s).srcH = s.srcH := rfl
@[simp] theorem reply_timestamp (v : Word) (s : State) : (reply v s).timestamp = s.timestamp := rfl
@[simp] theorem reply_opaR (v : Word) (s : State) : (reply v s).opaR = s.opaR := rfl
@[simp] theorem reply_opaG (v : Word) (s : State) : (reply v s).opaG = s.opaG := rfl
@[simp] theorem reply_opaB (v : Word) (s : State) : (reply v s).opaB = s.opaB := rfl
@[simp] theorem reply_opbR (v : Word) (s : State) : (reply v s).opbR = s.opbR := rfl
@[simp] theorem reply_opbG (v : Word) (s : State) : (reply v s).opbG = s.opbG := rfl
@[simp] theorem reply_opbB (v : Word) (s : State) : (reply v s).opbB = s.opbB := rfl
@[simp] theorem reply_res0 (v : Word) (s : State) : (reply v s).res0 = s.res0 := rfl
@[simp] theorem reply_res1 (v : Word) (s : State) : (reply v s).res1 = s.res1 := rfl
@[simp] theorem reply_res2 (v : Word) (s : State) : (reply v s).res2 = s.res2 := rfl
@[simp] theorem reply_palette (v : Word) (s : State) : (reply v s).palette = s.palette := rfl
@[simp] theorem reply_mem (v : Word) (s : State) : (reply v s).mem = s.mem := rfl
@[simp] theorem reply_phase (v : Word) (s : State) : (reply v s).phase = s.phase := rfl
@[simp] theorem reply_active (v : Word) (s : State) : (reply v s).active = s.active := rfl
@[simp] theorem reply_scan (v : Word) (s : State) : (reply v s).scan = s.scan := rfl
@[simp] theorem reply_faults (v : Word) (s : State) : (reply v s).faults = s.faults := rfl
@[simp] theorem reply_latLeft (v : Word) (s : State) : (reply v s).latLeft = s.latLeft := rfl
@[simp] theorem reply_draws (v : Word) (s : State) : (reply v s).draws = s.draws := rfl
@[simp] theorem reply_turn (v : Word) (s : State) : (reply v s).turn = s.turn := rfl
@[simp] theorem reply_schedule (v : Word) (s : State) : (reply v s).schedule = s.schedule := rfl
@[simp] theorem reply_hostTurns (v : Word) (s : State) : (reply v s).hostTurns = s.hostTurns := rfl
@[simp] theorem reply_host (v : Word) (s : State) : (reply v s).host = s.host := rfl
@[simp] theorem reply_replies (v : Word) (s : State) : (reply v s).replies = v :: s.replies := rfl

@[simp] theorem noteReserved_status (r : RegName) (s : State) : (noteReserved r s).status = s.status := by unfold noteReserved; split <;> simp
@[simp] theorem noteReserved_config (r : RegName) (s : State) : (noteReserved r s).config = s.config := by unfold noteReserved; split <;> simp
@[simp] theorem noteReserved_srcW (r : RegName) (s : State) : (noteReserved r s).srcW = s.srcW := by unfold noteReserved; split <;> simp
@[simp] theorem noteReserved_srcH (r : RegName) (s : State) : (noteReserved r s).srcH = s.srcH := by unfold noteReserved; split <;> simp
@[simp] theorem noteReserved_timestamp (r : RegName) (s : State) : (noteReserved r s).timestamp = s.timestamp := by unfold noteReserved; split <;> simp
@[simp] theorem noteReserved_opaR (r : RegName) (s : State) : (noteReserved r s).opaR = s.opaR := by unfold noteReserved; split <;> simp
@[simp] theorem noteReserved_opaG (r : RegName) (s : State) : (noteReserved r s).opaG = s.opaG := by unfold noteReserved; split <;> simp
@[simp] theorem noteReserved_opaB (r : RegName) (s : State) : (noteReserved r s).opaB = s.opaB := by unfold noteReserved; split <;> simp
@[simp] theorem noteReserved_opbR (r : RegName) (s : State) : (noteReserved r s).opbR = s.opbR := by unfold noteReserved; split <;> simp
@[simp] theorem noteReserved_opbG (r : RegName) (s : State) : (noteReserved r s).opbG = s.opbG := by unfold noteReserved; split <;> simp
@[simp] theorem noteReserved_opbB (r : RegName) (s : State) : (noteReserved r s).opbB = s.opbB := by unfold noteReserved; split <;> simp
@[simp] theorem noteReserved_res0 (r : RegName) (s : State) : (noteReserved r s).res0 = s.res0 := by unfold noteReserved; split <;> simp
@[simp] theorem noteReserved_res1 (r : RegName) (s : State) : (noteReserved r s).res1 = s.res1 := by unfold noteReserved; split <;> simp
@[simp] theorem noteReserved_res2 (r : RegName) (s : State) : (noteReserved r s).res2 = s.res2 := by unfold noteReserved; split <;> simp
@[simp] theorem noteReserved_palette (r : RegName) (s : State) : (noteReserved r s).palette = s.palette := by unfold noteReserved; split <;> simp
@[simp] theorem noteReserved_mem (r : RegName) (s : State) : (noteReserved r s).mem = s.mem := by unfold noteReserved; split <;> simp
@[simp] theorem noteReserved_phase (r : RegName) (s : State) : (noteReserved r s).phase = s.phase := by unfold noteReserved; split <;> simp
@[simp] theorem noteReserved_active (r : RegName) (s : State) : (noteReserved r s).active = s.active := by unfold noteReserved; split <;> simp
@[simp] theorem noteReserved_scan (r : RegName) (s : State) : (noteReserved r s).scan = s.scan := by unfold noteReserved; split <;> simp
@[simp] theorem noteReserved_latLeft (r : RegName) (s : State) : (noteReserved r s).latLeft = s.latLeft := by unfold noteReserved; split <;> simp
@[simp] theorem noteReserved_draws (r : RegName) (s : State) : (noteReserved r s).draws = s.draws := by unfold noteReserved; split <;> simp
@[simp] theorem noteReserved_turn (r : RegName) (s : State) : (noteReserved r s).turn = s.turn := by unfold noteReserved; split <;> simp
@[simp] theorem noteReserved_schedule (r : RegName) (s : State) : (noteReserved r s).schedule = s.schedule := by unfold noteReserved; split <;> simp
@[simp] theorem noteReserved_hostTurns (r : RegName) (s : State) : (noteReserved r s).hostTurns = s.hostTurns := by unfold noteReserved; split <;> simp
@[simp] theorem noteReserved_host (r : RegName) (s : State) : (noteReserved r s).host = s.host := by unfold noteReserved; split <;> simp
@[simp] theorem noteReserved_replies (r : RegName) (s : State) : (noteReserved r s).replies = s.replies := by unfold noteReserved; split <;> simp

@[simp] theorem replyFree_status (n : Nat) (s : State) : (replyFree n s).status = s.status := rfl
@[simp] theorem replyFree_config (n : Nat) (s : State) : (replyFree n s).config = s.config := rfl
@[simp] theorem replyFree_srcW (n : Nat) (s : State) : (replyFree n s).srcW = s.srcW := rfl
@[simp] theorem replyFree_srcH (n : Nat) (s : State) : (replyFree n s).srcH = s.srcH := rfl
@[simp] theorem replyFree_timestamp (n : Nat) (s : State) : (replyFree n s).timestamp = s.timestamp := rfl
@[simp] theorem replyFree_opaR (n : Nat) (s : State) : (replyFree n s).opaR = s.opaR := rfl
@[simp] theorem replyFree_opaG (n : Nat) (s : State) : (replyFree n s).opaG = s.opaG := rfl
@[simp] theorem replyFree_opaB (n : Nat) (s : State) : (replyFree n s).opaB = s.opaB := rfl
@[simp] theorem replyFree_opbR (n : Nat) (s : State) : (replyFree n s).opbR = s.opbR := rfl
@[simp] theorem replyFree_opbG (n : Nat) (s : State) : (replyFree n s).opbG = s.opbG := rfl
@[simp] theorem replyFree_opbB (n : Nat) (s : State) : (replyFree n s).opbB = s.opbB := rfl
@[simp] theorem replyFree_res0 (n : Nat) (s : State) : (replyFree n s).res0 = s.res0 := rfl
@[simp] theorem replyFree_res1 (n : Nat) (s : State) : (replyFree n s).res1 = s.res1 := rfl
@[simp] theorem replyFree_res2 (n : Nat) (s : State) : (replyFree n s).res2 = s.res2 := rfl
@[simp] theorem replyFree_palette (n : Nat) (s : State) : (replyFree n s).palette = s.palette := rfl
@[simp] theorem replyFree_mem (n : Nat) (s : State) : (replyFree n s).mem = s.mem := rfl
@[simp] theorem replyFree_phase (n : Nat) (s : State) : (replyFree n s).phase = s.phase := rfl
@[simp] theorem replyFree_active (n : Nat) (s : State) : (replyFree n s).active = s.active := rfl
@[simp] theorem replyFree_scan (n : Nat) (s : State) : (replyFree n s).scan = s.scan := rfl
@[simp] theorem replyFree_faults (n : Nat) (s : State) : (replyFree n s).faults = s.faults := rfl
@[simp] theorem replyFree_latLeft (n : Nat) (s : State) : (replyFree n s).latLeft = s.latLeft := rfl
@[simp] theorem replyFree_draws (n : Nat) (s : State) : (replyFree n s).draws = s.draws + 1 := rfl
@[simp] theorem replyFree_turn (n : Nat) (s : State) : (replyFree n s).turn = s.turn := rfl
@[simp] theorem replyFree_schedule (n : Nat) (s : State) : (replyFree n s).schedule = s.schedule := rfl
@[simp] theorem replyFree_hostTurns (n : Nat) (s : State) : (replyFree n s).hostTurns = s.hostTurns := rfl
@[simp] theorem replyFree_host (n : Nat) (s : State) : (replyFree n s).host = s.host := rfl

@[simp] theorem freeTurn_status (s : State) : (freeTurn s).status = s.status := rfl
@[simp] theorem freeTurn_config (s : State) : (freeTurn s).config = s.config := rfl
@[simp] theorem freeTurn_srcW (s : State) : (freeTurn s).srcW = s.srcW := rfl
@[simp] theorem freeTurn_srcH (s : State) : (freeTurn s).srcH = s.srcH := rfl
@[simp] theorem freeTurn_timestamp (s : State) : (freeTurn s).timestamp = s.timestamp := rfl
@[simp] theorem freeTurn_opaR (s : State) : (freeTurn s).opaR = s.opaR := rfl
@[simp] theorem freeTurn_opaG (s : State) : (freeTurn s).opaG = s.opaG := rfl
@[simp] theorem freeTurn_opaB (s : State) : (freeTurn s).opaB = s.opaB := rfl
@[simp] theorem freeTurn_opbR (s : State) : (freeTurn s).opbR = s.opbR := rfl
@[simp] theorem freeTurn_opbG (s : State) : (freeTurn s).opbG = s.opbG := rfl
@[simp] theorem freeTurn_opbB (s : State) : (freeTurn s).opbB = s.opbB := rfl
@[simp] theorem freeTurn_res0 (s : State) : (freeTurn s).res0 = s.res0 := rfl
@[simp] theorem freeTurn_res1 (s : State) : (freeTurn s).res1 = s.res1 := rfl
@[simp] theorem freeTurn_res2 (s : State) : (freeTurn s).res2 = s.res2 := rfl
@[simp] theorem freeTurn_palette (s : State) : (freeTurn s).palette = s.palette := rfl
@[simp] theorem freeTurn_mem (s : State) : (freeTurn s).mem = s.mem := rfl
@[simp] theorem freeTurn_phase (s : State) : (freeTurn s).phase = s.phase := rfl
@[simp] theorem freeTurn_active (s : State) : (freeTurn s).active = s.active := rfl
@[simp] theorem freeTurn_scan (s : State) : (freeTurn s).scan = s.scan := rfl
@[simp] theorem freeTurn_faults (s : State) : (freeTurn s).faults = s.faults := rfl
@[simp] theorem freeTurn_latLeft (s : State) : (freeTurn s).latLeft = s.latLeft := rfl
@[simp] theorem freeTurn_schedule (s : State) : (freeTurn s).schedule = s.schedule := rfl
@[simp] theorem freeTurn_host (s : State) : (freeTurn s).host = s.host := rfl
@[simp] theorem freeTurn_replies (s : State) : (freeTurn s).replies = s.replies := rfl

@[simp] theorem nextTurn_status (s : State) : (nextTurn s).status = s.status := by unfold nextTurn; split <;> simp
@[simp] theorem nextTurn_config (s : State) : (nextTurn s).config = s.config := by unfold nextTurn; split <;> simp
@[simp] theorem nextTurn_srcW (s : State) : (nextTurn s).srcW = s.srcW := by unfold nextTurn; split <;> simp
@[simp] theorem nextTurn_srcH (s : State) : (nextTurn s).srcH = s.srcH := by unfold nextTurn; split <;> simp
@[simp] theorem nextTurn_timestamp (s : State) : (nextTurn s).timestamp = s.timestamp := by unfold nextTurn; split <;> simp
@[simp] theorem nextTurn_opaR (s : State) : (nextTurn s).opaR = s.opaR := by unfold nextTurn; split <;> simp
@[simp] theorem nextTurn_opaG (s : State) : (nextTurn s).opaG = s.opaG := by unfold nextTurn; split <;> simp
@[simp] theorem nextTurn_opaB (s : State) : (nextTurn s).opaB = s.opaB := by unfold nextTurn; split <;> simp
@[simp] theorem nextTurn_opbR (s : State) : (nextTurn s).opbR = s.opbR := by unfold nextTurn; split <;> simp
@[simp] theorem nextTurn_opbG (s : State) : (nextTurn s).opbG = s.opbG := by unfold nextTurn; split <;> simp
@[simp] theorem nextTurn_opbB (s : State) : (nextTurn s).opbB = s.opbB := by unfold nextTurn; split <;> simp
@[simp] theorem nextTurn_res0 (s : State) : (nextTurn s).res0 = s.res0 := by unfold nextTurn; split <;> simp
@[simp] theorem nextTurn_res1 (s : State) : (nextTurn s).res1 = s.res1 := by unfold nextTurn; split <;> simp
@[simp] theorem nextTurn_res2 (s : State) : (nextTurn s).res2 = s.res2 := by unfold nextTurn; split <;> simp
@[simp] theorem nextTurn_palette (s : State) : (nextTurn s).palette = s.palette := by unfold nextTurn; split <;> simp
@[simp] theorem nextTurn_mem (s : State) : (nextTurn s).mem = s.mem := by unfold nextTurn; split <;> simp
@[simp] theorem nextTurn_phase (s : State) : (nextTurn s).phase = s.phase := by unfold nextTurn; split <;> simp
@[simp] theorem nextTurn_active (s : State) : (nextTurn s).active = s.active := by unfold nextTurn; split <;> simp
@[simp] theorem nextTurn_scan (s : State) : (nextTurn s).scan = s.scan := by unfold nextTurn; split <;> simp
@[simp] theorem nextTurn_faults (s : State) : (nextTurn s).faults = s.faults := by unfold nextTurn; split <;> simp
@[simp] theorem nextTurn_latLeft (s : State) : (nextTurn s).latLeft = s.latLeft := by unfold nextTurn; split <;> simp
@[simp] theorem nextTurn_host (s : State) : (nextTurn s).host = s.host := by unfold nextTurn; split <;> simp
@[simp] theorem nextTurn_replies (s : State) : (nextTurn s).replies = s.replies := by unfold nextTurn; split <;> simp

@[simp] theorem resetBlock_status (s : State) : (resetBlock s).status = State.reset.status := rfl
@[simp] theorem resetBlock_config (s : State) : (resetBlock s).config = State.reset.config := rfl
@[simp] theorem resetBlock_srcW (s : State) : (resetBlock s).srcW = State.reset.srcW := rfl
@[simp] theorem resetBlock_srcH (s : State) : (resetBlock s).srcH = State.reset.srcH := rfl
@[simp] theorem resetBlock_timestamp (s : State) : (resetBlock s).timestamp = State.reset.timestamp := rfl
@[simp] theorem resetBlock_opaR (s : State) : (resetBlock s).opaR = State.reset.opaR := rfl
@[simp] theorem resetBlock_opaG (s : State) : (resetBlock s).opaG = State.reset.opaG := rfl
@[simp] theorem resetBlock_opaB (s : State) : (resetBlock s).opaB = State.reset.opaB := rfl
@[simp] theorem resetBlock_opbR (s : State) : (resetBlock s).opbR = State.reset.opbR := rfl
@[simp] theorem resetBlock_opbG (s : State) : (resetBlock s).opbG = State.reset.opbG := rfl
@[simp] theorem resetBlock_opbB (s : State) : (resetBlock s).opbB = State.reset.opbB := rfl
@[simp] theorem resetBlock_res0 (s : State) : (resetBlock s).res0 = State.reset.res0 := rfl
@[simp] theorem resetBlock_res1 (s : State) : (resetBlock s).res1 = State.reset.res1 := rfl
@[simp] theorem resetBlock_res2 (s : State) : (resetBlock s).res2 = State.reset.res2 := rfl
@[simp] theorem resetBlock_palette (s : State) : (resetBlock s).palette = State.reset.palette := rfl
@[simp] theorem resetBlock_mem (s : State) : (resetBlock s).mem = State.reset.mem := rfl
@[simp] theorem resetBlock_phase (s : State) : (resetBlock s).phase = State.reset.phase := rfl
@[simp] theorem resetBlock_active (s : State) : (resetBlock s).active = State.reset.active := rfl
@[simp] theorem resetBlock_scan (s : State) : (resetBlock s).scan = State.reset.scan := rfl
@[simp] theorem resetBlock_faults (s : State) : (resetBlock s).faults = s.faults := rfl
@[simp] theorem resetBlock_latLeft (s : State) : (resetBlock s).latLeft = State.reset.latLeft := rfl
@[simp] theorem resetBlock_draws (s : State) : (resetBlock s).draws = s.draws := rfl
@[simp] theorem resetBlock_turn (s : State) : (resetBlock s).turn = s.turn := rfl
@[simp] theorem resetBlock_schedule (s : State) : (resetBlock s).schedule = s.schedule := rfl
@[simp] theorem resetBlock_hostTurns (s : State) : (resetBlock s).hostTurns = s.hostTurns := rfl
@[simp] theorem resetBlock_host (s : State) : (resetBlock s).host = s.host := rfl
@[simp] theorem resetBlock_replies (s : State) : (resetBlock s).replies = s.replies := rfl

theorem mem_recordFault (f g : Fault) (s : State) : g ∈ (recordFault f s).faults ↔ g = f ∨ g ∈ s.faults := by
  unfold recordFault
  split
  · next h =>
    constructor
    · exact .inr
    · rintro (rfl | h')
      · exact h
      · exact h'
  · simp

/-- BAD_ACCESS is recorded exactly for a register past the register file. -/
theorem mem_noteReserved (r : RegName) (g : Fault) (s : State) :
    g ∈ (noteReserved r s).faults ↔ (Config.REG_LEN ≤ regOffset r ∧ g = .badAccess) ∨ g ∈ s.faults := by
  unfold noteReserved
  split
  · next h => simp [mem_recordFault, h]
  · next h => simp [h]

/-- A register of the register file's own offsets is reached with no fault recorded. -/
theorem noteReserved_of_lt {r : RegName} (h : regOffset r < Config.REG_LEN) (s : State) : noteReserved r s = s :=
  if_neg (Nat.not_le.2 h)

/-- A read of written registers changes nothing. -/
theorem noteRead_of_written {regs : List DataReg} (h : anyUnwritten regs = false) (s : State) : noteRead regs s = s := by
  simp [noteRead, h]

theorem mem_noteRead (regs : List DataReg) (g : Fault) (s : State) :
    g ∈ (noteRead regs s).faults ↔ (anyUnwritten regs = true ∧ g = .readUnwritten) ∨ g ∈ s.faults := by
  unfold noteRead
  split
  · next h => simp [mem_recordFault, h]
  · next h => simp [h]

@[simp] theorem completeDirect_faults (regs : List DataReg) (r : Results) (s : State) :
    (completeDirect regs r s).faults = (noteRead regs s).faults := rfl

@[simp] theorem finishConvert_scan (sc : Scan) (s : State) :
    (finishConvert sc s).scan = { sc with fb := storeWriteAll sc.fb 0 (headerBytes s.timestamp) } := rfl

@[simp] theorem finishConvert_mem (sc : Scan) (s : State) :
    (finishConvert sc s).mem =
      storeCopy Config.FRAME_BASE (storeWriteAll sc.fb 0 (headerBytes s.timestamp)) s.mem := by
  simp only [finishConvert, completeCommand]

@[simp] theorem statusCleared_busy (st : Status) : (statusCleared st).busy = st.busy := rfl
@[simp] theorem statusAnswered_busy (c : ErrCode) (st : Status) : (statusAnswered c st).busy = st.busy := rfl
@[simp] theorem statusAnswered_done (c : ErrCode) (st : Status) : (statusAnswered c st).done = true := rfl
@[simp] theorem statusAnswered_ovr (c : ErrCode) (st : Status) : (statusAnswered c st).ovr = false := rfl
@[simp] theorem statusAnswered_err (c : ErrCode) (st : Status) : (statusAnswered c st).err = c := rfl
@[simp] theorem statusStarted_busy (st : Status) : (statusStarted st).busy = true := rfl
@[simp] theorem statusStarted_done (st : Status) : (statusStarted st).done = false := rfl
@[simp] theorem statusStarted_ovr (st : Status) : (statusStarted st).ovr = false := rfl
@[simp] theorem statusStarted_err (st : Status) : (statusStarted st).err = .none := rfl
@[simp] theorem statusCompleted_busy (st : Status) : (statusCompleted st).busy = false := rfl
@[simp] theorem statusCompleted_done (st : Status) : (statusCompleted st).done = true := rfl
@[simp] theorem statusCompleted_ovr (st : Status) : (statusCompleted st).ovr = st.ovr := rfl
@[simp] theorem statusCompleted_err (st : Status) : (statusCompleted st).err = .none := rfl
@[simp] theorem statusOverrun_busy (st : Status) : (statusOverrun st).busy = st.busy := rfl
@[simp] theorem statusOverrun_done (st : Status) : (statusOverrun st).done = st.done := rfl
@[simp] theorem statusOverrun_ovr (st : Status) : (statusOverrun st).ovr = true := rfl
@[simp] theorem statusOverrun_err (st : Status) : (statusOverrun st).err = st.err := rfl

end Sys2Proof.Machine
end

