-- ==== Sys2Proof/Laws/Ops.lean ====
section
/-! SUPPORT. Once for each shared operation, everything it can do. -/

namespace Sys2Proof.Machine

/-- The acceptance of a command: an overrun, an unwritten operand, an error answer, or a start. -/
theorem acceptCommand_cases (i : Instr) (regs : List DataReg) (error : Option ErrCode) (s : State) :
    (s.status.busy = true ∧ acceptCommand i regs error s = overrun s) ∨
    (s.status.busy = false ∧ anyUnwritten regs = true ∧ acceptCommand i regs error s = unwrittenOperand s) ∨
    (s.status.busy = false ∧ anyUnwritten regs = false ∧ ∃ code, error = some code ∧
      acceptCommand i regs error s = raiseError code s) ∨
    (s.status.busy = false ∧ anyUnwritten regs = false ∧ error = none ∧
      acceptCommand i regs error s = startCommand i s) := by
  cases hb : s.status.busy with
  | true => exact .inl ⟨rfl, by simp [acceptCommand, hb]⟩
  | false =>
    cases hu : anyUnwritten regs with
    | true => exact .inr (.inl ⟨rfl, rfl, by simp [acceptCommand, hb, hu]⟩)
    | false =>
      cases error with
      | some code => exact .inr (.inr (.inl ⟨rfl, rfl, code, rfl, by simp [acceptCommand, hb, hu]⟩))
      | none => exact .inr (.inr (.inr ⟨rfl, rfl, rfl, by simp [acceptCommand, hb, hu]⟩))

/-- The engine's step on a command: no step, one of its waiting steps, or its completion. -/
theorem engineStep_cases (i : Instr) (completion : State → Result) (s : State) :
    (¬(s.phase = .run ∧ s.active = some i) ∧ engineStep i completion s = .next s) ∨
    (s.phase = .run ∧ s.active = some i ∧ 1 < s.latLeft ∧
      engineStep i completion s = .next (waitStep s)) ∨
    (s.phase = .run ∧ s.active = some i ∧ s.latLeft ≤ 1 ∧ engineStep i completion s = completion s) := by
  by_cases h : s.phase = .run ∧ s.active = some i
  · by_cases h1 : 1 < s.latLeft
    · exact .inr (.inl ⟨h.1, h.2, h1, by simp [engineStep, h, h1]⟩)
    · exact .inr (.inr ⟨h.1, h.2, by omega, by simp [engineStep, h, h1]⟩)
  · exact .inl ⟨h, by simp only [engineStep, h, if_false]⟩

/-- A direct command always answers a next state: an acceptance, no step, a waiting step or its completion. -/
theorem directCommand_cases (i : Instr) (regs : State → List DataReg) (results : State → Results) (s : State) :
    (s.turn = .host ∧
      directCommand i regs results s = .next (acceptCommand i (regs s) (finiteCheck (regs s)) s)) ∨
    (s.turn = .engine ∧ ¬(s.phase = .run ∧ s.active = some i) ∧ directCommand i regs results s = .next s) ∨
    (s.turn = .engine ∧ s.phase = .run ∧ s.active = some i ∧ 1 < s.latLeft ∧
      directCommand i regs results s = .next (waitStep s)) ∨
    (s.turn = .engine ∧ s.phase = .run ∧ s.active = some i ∧ s.latLeft ≤ 1 ∧
      directCommand i regs results s = .next (completeDirect (regs s) (results s) s)) := by
  cases ht : s.turn with
  | host => exact .inl ⟨rfl, by simp [directCommand, ht]⟩
  | engine =>
    have he : directCommand i regs results s =
        engineStep i (fun s => .next (completeDirect (regs s) (results s) s)) s := by simp [directCommand, ht]
    rcases engineStep_cases i (fun s => .next (completeDirect (regs s) (results s) s)) s with
      ⟨h, h'⟩ | ⟨h1, h2, h3, h'⟩ | ⟨h1, h2, h3, h'⟩
    · exact .inr (.inl ⟨rfl, h, he.trans h'⟩)
    · exact .inr (.inr (.inl ⟨rfl, h1, h2, h3, he.trans h'⟩))
    · exact .inr (.inr (.inr ⟨rfl, h1, h2, h3, he.trans h'⟩))

/-- CONVERT: an acceptance, no step, a waiting step, or its completion, which publishes a scan or meets an unwritten SRC
byte. -/
theorem execConvert_cases (s : State) :
    (s.turn = .host ∧ execConvert s = .next (acceptCommand .convert [] (dimensionCheck s) s)) ∨
    (s.turn = .engine ∧ ¬(s.phase = .run ∧ s.active = some .convert) ∧ execConvert s = .next s) ∨
    (s.turn = .engine ∧ s.phase = .run ∧ s.active = some .convert ∧ 1 < s.latLeft ∧
      execConvert s = .next (waitStep s)) ∨
    (s.turn = .engine ∧ s.phase = .run ∧ s.active = some .convert ∧ s.latLeft ≤ 1 ∧
      ((∃ sc, convertScan params s.palette (configRot180 s) (srcByte s) s.scan = some sc ∧
          execConvert s = .next (finishConvert sc s)) ∨
       (convertScan params s.palette (configRot180 s) (srcByte s) s.scan = none ∧
          execConvert s = .fault .readUnwritten))) := by
  cases ht : s.turn with
  | host => exact .inl ⟨rfl, by simp [execConvert, ht]⟩
  | engine =>
    have he : execConvert s = engineStep .convert completeConvert s := by simp [execConvert, ht]
    rcases engineStep_cases .convert completeConvert s with ⟨h, h'⟩ | ⟨h1, h2, h3, h'⟩ | ⟨h1, h2, h3, h'⟩
    · exact .inr (.inl ⟨rfl, h, he.trans h'⟩)
    · exact .inr (.inr (.inl ⟨rfl, h1, h2, h3, he.trans h'⟩))
    · refine .inr (.inr (.inr ⟨rfl, h1, h2, h3, ?_⟩))
      cases hc : convertScan params s.palette (configRot180 s) (srcByte s) s.scan with
      | some sc => exact .inl ⟨sc, rfl, by simp [he, h', completeConvert, hc]⟩
      | none => exact .inr ⟨rfl, by simp [he, h', completeConvert, hc]⟩

/-- NOP: no step of the engine, an overrun, or its answer. -/
theorem execNop_cases (s : State) :
    (s.turn = .engine ∧ execNop s = .next s) ∨
    (s.turn = .host ∧ s.status.busy = true ∧ execNop s = .next (overrun s)) ∨
    (s.turn = .host ∧ s.status.busy = false ∧ execNop s = .next (raiseError .none s)) := by
  cases ht : s.turn with
  | engine => exact .inl ⟨rfl, by simp [execNop, ht]⟩
  | host =>
    cases hb : s.status.busy with
    | true => exact .inr (.inl ⟨rfl, rfl, by simp [execNop, ht, hb]⟩)
    | false => exact .inr (.inr ⟨rfl, rfl, by simp [execNop, ht, hb]⟩)

/-- Past the schedule's end: the host's turn in IDLE; while a command runs one of its remaining turns, or the engine's with a
fresh number drawn. -/
theorem freeTurn_cases (s : State) :
    (s.phase = .idle ∧ freeTurn s = { s with turn := .host }) ∨
    (s.phase = .run ∧ s.hostTurns = 0 ∧
      freeTurn s = { s with turn := .engine, hostTurns := Config.hostTurns s.draws, draws := s.draws + 1 }) ∨
    (s.phase = .run ∧ ∃ k, s.hostTurns = k + 1 ∧ freeTurn s = { s with turn := .host, hostTurns := k }) := by
  cases hp : s.phase with
  | idle => exact .inl ⟨rfl, by simp [freeTurn, engineNext, hp]⟩
  | run =>
    cases hk : s.hostTurns with
    | zero => exact .inr (.inl ⟨rfl, rfl, by simp [freeTurn, engineNext, hp, hk]⟩)
    | succ k => exact .inr (.inr ⟨rfl, k, rfl, by simp [freeTurn, engineNext, hp, hk]⟩)

/-- The passing of the turn changes the model's own fields for it and nothing else. -/
theorem nextTurn_frame (s : State) :
    ∃ a sch h d, nextTurn s = { s with turn := a, schedule := sch, hostTurns := h, draws := d } := by
  unfold nextTurn
  split
  · exact ⟨_, _, _, _, rfl⟩
  · rcases freeTurn_cases s with ⟨_, h⟩ | ⟨_, _, h⟩ | ⟨_, _, _, h⟩ <;> exact ⟨_, _, _, _, h⟩

/-- A turn is passed only from a next state. -/
theorem passTurn_next {r : Result} {t : State} (h : passTurn r = .next t) : ∃ s, r = .next s ∧ t = nextTurn s := by
  cases r with
  | next s => simp only [passTurn] at h; injection h with h; exact ⟨s, rfl, h.symm⟩
  | fault f => simp [passTurn] at h
  | refused r => simp [passTurn] at h

/-- A step that answers a next state is a step of the agent whose turn it is. -/
theorem step_next {s t : State} (h : step s = .next t) : ∃ u, agentStep s = .next u ∧ t = nextTurn u := passTurn_next h

/-- A write of an input takes effect exactly while no command runs. -/
theorem writeInput_next {s w t : State} (h : writeInput s w = .next t) : s.status.busy = false ∧ t = w := by
  unfold writeInput at h
  split at h
  · cases h
  · next hb => injection h with h; exact ⟨by simpa using hb, h.symm⟩

/-- The load and scan of an image whose R, G and B bytes are written complete (42_ditherer.md R183, R184). -/
theorem convertScan_total (P : Params) (pal : Palette) (rot : Bool) (src : Nat → Option Byte) (sc : Scan)
    (h : ∀ p, p < Config.numPixels →
      (src (4 * p)).isSome ∧ (src (4 * p + 1)).isSome ∧ (src (4 * p + 2)).isSome) :
    ∃ sc', convertScan P pal rot src sc = some sc' := by
  obtain ⟨pix, hl, hin, _⟩ := loadPixels_spec P.elem src Config.numPixels 0 sc.pix
    (fun q _ hq => h q (by omega))
  have hw : AllWritten pix := by
    intro q hq
    obtain ⟨hr, hg, hb⟩ := h q hq
    obtain ⟨r, hr⟩ := Option.isSome_iff_exists.1 hr
    obtain ⟨g, hg⟩ := Option.isSome_iff_exists.1 hg
    obtain ⟨b, hb⟩ := Option.isSome_iff_exists.1 hb
    rw [hin q (Nat.zero_le q) (by omega) r g b hr hg hb]
    rfl
  obtain ⟨sc', hs, _⟩ := scanPixels_total P pal rot Config.numPixels
    (sc := { sc with cursor := cursorStart, pix := pix }) hw (fun ho => by simp [cursorStart] at ho)
  exact ⟨sc', by simp only [convertScan, hl, hs]⟩

/-- What a scan of an image leaves is canonical where it started canonical. -/
theorem convertScan_wf {P : Params} {pal : Palette} {rot : Bool} {src : Nat → Option Byte} {sc sc' : Scan}
    (h : convertScan P pal rot src sc = some sc') (hp : storeWf sc.pix = true) (hf : storeWf sc.fb = true) :
    storeWf sc'.pix = true ∧ storeWf sc'.fb = true := by
  simp only [convertScan] at h
  split at h
  · cases h
  · next pix hl => exact scanPixels_wf h (loadPixels_wf _ _ _ _ _ _ hl hp) hf

/-- The memory of the state after reset is canonical. -/
theorem reset_mem_wf : Memory.wf State.reset.mem = true := rfl

/-- A host write to SRC keeps the memory's canonical form. -/
theorem mem_wf_write (m : List Host.Cell) (a n : Nat) (v : Word) (h : Memory.wf m = true) :
    Memory.wf (storeWriteAll m a (bytesOf v n)) = true := storeWf_storeWriteAll _ _ _ h

/-- The publication of FRAME keeps the memory's canonical form. -/
theorem mem_wf_finishConvert (sc : Scan) (s : State) (h : Memory.wf s.mem = true) :
    Memory.wf (finishConvert sc s).mem = true := by
  rw [finishConvert_mem]
  exact storeWf_storeCopy _ _ _ h

end Sys2Proof.Machine
end

