-- ==== Sys2Proof/Laws/HostPort.lean ====
section
/-! SUPPORT. Everything a host transaction can do when it answers a next state (44_control.md R243 to R247). -/

namespace Sys2Proof.Machine

/-- An admitted access inside SRC reaches SRC. -/
theorem targetOf_src {a n : Nat} (h : inWindow Config.SRC_BASE Config.SRC_LEN a n = true) : targetOf a n = .src := by
  have hb : ¬Config.BLOCK_LEN ≤ a := by
    simp only [inWindow, Bool.and_eq_true, decide_eq_true_eq, Config.SRC_BASE, Config.SRC_LEN] at h
    simp only [Config.BLOCK_LEN]
    omega
  rw [targetOf, if_neg hb, if_pos h]

/-- An admitted access inside FRAME reaches FRAME. -/
theorem targetOf_frame {a n : Nat} (h : inWindow Config.FRAME_BASE Config.FRAME_LEN a n = true) :
    targetOf a n = .frame := by
  have h' := h
  simp only [inWindow, Bool.and_eq_true, decide_eq_true_eq, Config.FRAME_BASE, Config.FRAME_LEN] at h'
  have hb : ¬Config.BLOCK_LEN ≤ a := by simp only [Config.BLOCK_LEN]; omega
  have hs : ¬inWindow Config.SRC_BASE Config.SRC_LEN a n = true := by
    simp only [inWindow, Bool.and_eq_true, decide_eq_true_eq, Config.SRC_BASE, Config.SRC_LEN]
    omega
  rw [targetOf, if_neg hb, if_neg hs, if_pos h]

/-- What is written to SRC lies inside SRC. -/
theorem inWindow_of_targetOf_src {a n : Nat} (h : targetOf a n = .src) :
    inWindow Config.SRC_BASE Config.SRC_LEN a n = true := by
  unfold targetOf at h
  split at h
  · cases h
  · split at h
    · assumption
    · split at h
      · cases h
      · split at h
        · split at h <;> cases h
        · cases h

/-- A CMD write submits its word. -/
theorem hostWrite_cmd (w : Word) (s : State) : hostWrite 0x000 8 w s = submit w s := by
  rw [hostWrite, (by decide : targetOf 0x000 8 = .reg .cmd)]

/-- A note of a read changes the recorded faults at most, by READ_UNWRITTEN at most. -/
theorem noteRead_cases (regs : List DataReg) (s : State) :
    noteRead regs s = s ∨ noteRead regs s = { s with faults := .readUnwritten :: s.faults } := by
  unfold noteRead recordFault
  split
  · split
    · exact .inl rfl
    · exact .inr rfl
  · exact .inl rfl

/-- A note of an access to a register past the register file changes the recorded faults at most, by BAD_ACCESS at most. -/
theorem noteReserved_cases (r : RegName) (s : State) :
    noteReserved r s = s ∨ noteReserved r s = { s with faults := .badAccess :: s.faults } := by
  unfold noteReserved recordFault
  split
  · split
    · exact .inl rfl
    · exact .inr rfl
  · exact .inl rfl

/-- A state that differs from another one in the replies, the counter of free values and the recorded faults alone. -/
def OnlyReplied (s t : State) : Prop :=
  ∃ (r : List Word) (d : Nat) (f : List Fault),
    (f = s.faults ∨ f = .readUnwritten :: s.faults ∨ f = .badAccess :: s.faults) ∧
      t = { s with replies := r, draws := d, faults := f }

theorem onlyReplied_reply (v : Word) (s : State) : OnlyReplied s (reply v s) := ⟨_, _, _, .inl rfl, rfl⟩

theorem onlyReplied_replyFree (n : Nat) (s : State) : OnlyReplied s (replyFree n s) := ⟨_, _, _, .inl rfl, rfl⟩

theorem onlyReplied_replyReg (r : DataReg) (s : State) : OnlyReplied s (replyReg r s) := by
  rcases noteRead_cases [r] s with h | h <;> rw [replyReg, h]
  · exact ⟨_, _, _, .inl rfl, rfl⟩
  · exact ⟨_, _, _, .inr (.inl rfl), rfl⟩

theorem onlyReplied_replyReserved (v : Word) (r : RegName) (s : State) :
    OnlyReplied s (reply v (noteReserved r s)) := by
  rcases noteReserved_cases r s with h | h <;> rw [h]
  · exact ⟨_, _, _, .inl rfl, rfl⟩
  · exact ⟨_, _, _, .inr (.inr rfl), rfl⟩

theorem onlyReplied_replyResult (r : DataReg) (s : State) : OnlyReplied s (replyResult r s) := by
  unfold replyResult
  split
  · exact onlyReplied_replyFree 8 s
  · exact onlyReplied_replyReg r s

/-- A register read changes the replies, the counter and the recorded faults at most. -/
theorem onlyReplied_readReg (r : RegName) (s : State) : OnlyReplied s (readReg r s) := by
  cases r <;>
    first
      | exact onlyReplied_reply _ s
      | exact onlyReplied_replyReg _ s
      | exact onlyReplied_replyResult _ s
      | exact onlyReplied_replyReserved _ _ s

/-- A host read that answers changes the replies, the counter and the recorded faults at most. -/
theorem hostRead_next {a n : Nat} {s t : State} (h : hostRead a n s = .next t) : OnlyReplied s t := by
  have hw : ∀ {t}, readWindow a n s = .next t → OnlyReplied s t := by
    intro t h
    unfold readWindow at h
    split at h
    · cases h; exact onlyReplied_reply _ s
    · cases h
  unfold hostRead at h
  split at h
  · exact hw h
  · split at h
    · cases h; exact onlyReplied_replyFree n s
    · exact hw h
  · cases h; exact onlyReplied_readReg _ s
  · cases h
  · cases h

/-- A write of a register other than CMD that answers leaves the state as it is but for a note of the access, or, with no
command running, stores an input register. -/
theorem writeReg_next {r : RegName} {v : Word} {s t : State} (h : writeReg r v s = .next t) :
    t = s ∨ t = noteReserved r s ∨ (s.status.busy = false ∧ ∃ w hh ts a0 a1 a2 b0 b1 b2, t =
      { s with
        srcW := w, srcH := hh, timestamp := ts, opaR := a0, opaG := a1, opaB := a2, opbR := b0, opbG := b1,
        opbB := b2 }) := by
  cases r <;>
    first
      | (cases h; exact .inl rfl)
      | (cases h; exact .inr (.inl rfl))
      | (obtain ⟨hb, rfl⟩ := writeInput_next h; exact .inr (.inr ⟨hb, _, _, _, _, _, _, _, _, _, rfl⟩))

/-- A host write that answers submits a command word, stores bytes inside SRC, stores an input register, or does
nothing but note the access; both stores happen only while no command runs. -/
theorem hostWrite_next {a n : Nat} {v : Word} {s t : State} (h : hostWrite a n v s = .next t) :
    submit v s = .next t ∨
    (s.status.busy = false ∧ inWindow Config.SRC_BASE Config.SRC_LEN a n = true ∧
      t = { s with mem := storeWriteAll s.mem a (bytesOf v n) }) ∨
    t = s ∨ (∃ r, t = noteReserved r s) ∨ (s.status.busy = false ∧ ∃ w hh ts a0 a1 a2 b0 b1 b2, t =
      { s with
        srcW := w, srcH := hh, timestamp := ts, opaR := a0, opaG := a1, opaB := a2, opbR := b0, opbG := b1,
        opbB := b2 }) := by
  unfold hostWrite at h
  split at h
  · next ht =>
    obtain ⟨hb, rfl⟩ := writeInput_next h
    exact .inr (.inl ⟨hb, inWindow_of_targetOf_src ht, rfl⟩)
  · cases h; exact .inr (.inr (.inl rfl))
  · exact .inl h
  · rcases writeReg_next h with h' | h' | h'
    · exact .inr (.inr (.inl h'))
    · exact .inr (.inr (.inr (.inl ⟨_, h'⟩)))
    · exact .inr (.inr (.inr (.inr h')))
  · cases h
  · cases h

end Sys2Proof.Machine
end

