-- ==== Sys2Proof/Laws/PerInstr.lean ====
section
/-! SUPPORT. What holds of every command as syntax, one lemma per constructor: its word is well formed, and the table
decoder reads it back from the 64 bits of that word (30_encoding.md R90, R92). -/

namespace Sys2Proof.Laws.RoundTrip

/-- The word of a command is well formed and the table decoder gives the command back, also from the row's opcode
byte alone; with the lowest reserved bit set the word is refused. -/
def Statement (i : Instr) : Prop :=
  wellFormedWord (encode i) = true ∧ decodeTableWord 64 (encode i).toNat = some i ∧
  decodeTableWord 8 (opcodeOf i).toNat = some i ∧ decodeTableWord 64 ((encode i).toNat + 2 ^ 8) = none

theorem nop : Statement .nop := by unfold Statement; decide

theorem convert : Statement .convert := by unfold Statement; decide

theorem gamma : Statement .gamma := by unfold Statement; decide

theorem lab : Statement .lab := by unfold Statement; decide

theorem de2000 : Statement .de2000 := by unfold Statement; decide

theorem nearest : Statement .nearest := by unfold Statement; decide

end Sys2Proof.Laws.RoundTrip
end

