-- ==== Sys2Proof/Tests/Slice0.lean ====
section
/-! SUPPORT. Tests of single steps against values of spec/ (95_test_vectors.md unless another file is named), and for each
statement with hypotheses a named witness that meets them together. -/

open Sys2Proof Sys2Proof.Machine

/-! ### Ill-formed and decoded words -/

/-- V-F-CT-5: the reserved field of 0x101 is not zero. -/
theorem test_wellFormed_refuses_reserved :
    reservedIsZero 0x0000000000000101 = false ∧ wellFormedWord 0x0000000000000101 = false := by decide

/-- V-F-CT-3: no row of the map has opcode 0x06. -/
theorem test_wellFormed_refuses_opcode :
    opcodeIsKnown 0x0000000000000006 = false ∧ wellFormedWord 0x0000000000000006 = false := by decide

/-- 30_encoding.md R92: rsv = 0, op = 0x00. -/
theorem test_decode_nop : decode 0b0000000000000000000000000000000000000000000000000000000000000000 = .ok .nop := by decide

/-- 30_encoding.md R92: rsv = 0, op = 0x01. -/
theorem test_decode_convert : decode 0b0000000000000000000000000000000000000000000000000000000000000001 = .ok .convert := by
  decide

/-- 30_encoding.md R92: rsv = 0, op = 0x02. -/
theorem test_decode_gamma : decode 0b0000000000000000000000000000000000000000000000000000000000000010 = .ok .gamma := by
  decide

/-- 30_encoding.md R92: rsv = 0, op = 0x03. -/
theorem test_decode_lab : decode 0b0000000000000000000000000000000000000000000000000000000000000011 = .ok .lab := by decide

/-- 30_encoding.md R92: rsv = 0, op = 0x04. -/
theorem test_decode_de2000 : decode 0b0000000000000000000000000000000000000000000000000000000000000100 = .ok .de2000 := by
  decide

/-- 30_encoding.md R92: rsv = 0, op = 0x05. -/
theorem test_decode_nearest : decode 0b0000000000000000000000000000000000000000000000000000000000000101 = .ok .nearest := by
  decide

/-- 30_encoding.md R94: the highest reserved bit alone makes a word illegal. -/
theorem test_decode_top_bit : decode 0x8000000000000001 = .error .reservedBits := by decide

/-- 20_memory.md R63: the first byte is the lowest, and a short list is no command. -/
theorem test_decodeBytes_order :
    decodeBytes [0x05, 0, 0, 0, 0, 0, 0, 0, 0x77] = .ok (.nearest, [0x77]) ∧
    decodeBytes [0, 0, 0, 0, 0, 0, 0, 0x05] = .error .reservedBits ∧ decodeBytes [0x05] = .error .short := by decide

/-! ### Small states -/

/-- A written register. -/
def testReg (v : Word) : DataReg := { value := v, unwritten := false }

/-- The reset state with every operand register written: A = (0.04045, -0.0, -0.1), B = (0.5, 0.5, 0.5). -/
def testLoaded : State :=
  { State.reset with
    opaR := testReg 0x3FA4B5DCC63F1412, opaG := testReg 0x8000000000000000, opaB := testReg 0xBFB999999999999A
    opbR := testReg 0x3FE0000000000000, opbG := testReg 0x3FE0000000000000, opbB := testReg 0x3FE0000000000000 }

/-- A command running, with `n` engine steps left and the engine's turn. -/
def testRunning (i : Instr) (n : Nat) (s : State) : State :=
  { s with
    status := statusStarted s.status, phase := .run, active := some i, latLeft := n, turn := .engine }

/-- The state after an outcome, or the state after reset. -/
def testState (r : Result) : State :=
  match r with
  | .next s => s
  | .fault _ => State.reset
  | .refused _ => State.reset

/-- Whether an outcome is a next state. -/
def testNext (r : Result) : Bool :=
  match r with
  | .next _ => true
  | .fault _ => false
  | .refused _ => false

/-- An outcome that is a next state is the next state it gives. -/
theorem eq_of_testNext {r : Result} (h : testNext r = true) : r = .next (testState r) := by
  cases r <;> simp_all [testNext, testState]

/-- STATUS after an outcome. -/
def testStatus (r : Result) : Word := statusWord (testState r).status

/-! ### Commands -/

/-- V-F-CT-2: NOP clears ERR. -/
theorem test_nop_clears_err :
    testStatus (exec .nop { State.reset with status := ⟨false, true, false, .dimMismatch⟩ }) = 0x002 := by decide

/-- V-F-CT-6: a NOP while a command runs sets OVR. -/
theorem test_nop_busy :
    testStatus (hostWrite 0x000 8 0x00 { State.reset with status := ⟨true, false, false, .none⟩ }) = 0x005 := by decide

/-- V-F-CT-4: SRC_W = 601, SRC_H = 448. -/
theorem test_convert_dimension :
    testStatus (exec .convert { State.reset with srcW := 601, srcH := 448, status := ⟨false, true, false, .none⟩ }) =
      0x202 := by decide

/-- V-F-CT-20 for CONVERT: BUSY right after the CMD write; 42_ditherer.md R181. -/
theorem test_convert_accepted :
    testStatus (hostWrite 0x000 8 0x01 { State.reset with srcW := 600, srcH := 448 }) = 0x001 := by decide

/-- V-F-GM-3, V-F-GM-2 and V-F-GM-7: three values of the linear branch. -/
theorem test_gamma_linear_branch :
    (testState (exec .gamma (testRunning .gamma 1 testLoaded))).res0 = testReg 0x3F69A5C61C57A062 ∧
    (testState (exec .gamma (testRunning .gamma 1 testLoaded))).res1 = testReg 0x8000000000000000 ∧
    (testState (exec .gamma (testRunning .gamma 1 testLoaded))).res2 = testReg 0xBF7FB3E9CEDC559A := by decide +kernel

/-- V-F-GM-10 and V-F-CT-9: OPA_R = NaN. -/
theorem test_gamma_nan : testStatus (exec .gamma { testLoaded with opaR := testReg 0x7FF8000000000000 }) = 0x302 := by
  decide +kernel

/-- V-F-LAB-12: (-0.0, 0, 0). -/
theorem test_lab_black :
    (testState (exec .lab (testRunning .lab 1
      { State.reset with opaR := testReg 0x8000000000000000, opaG := testReg 0, opaB := testReg 0 }))).res0 = testReg 0 ∧
    (testState (exec .lab (testRunning .lab 1
      { State.reset with opaR := testReg 0x8000000000000000, opaG := testReg 0, opaB := testReg 0 }))).res2 =
        testReg 0 := by
  decide +kernel

/-- V-F-LAB-13: OPA_R = +inf. -/
theorem test_lab_infinity : testStatus (exec .lab { testLoaded with opaR := testReg 0x7FF0000000000000 }) = 0x302 := by
  decide +kernel

/-- 41_distance.md R153: RES1 is zero; OVR stays at completion (V-F-CT-6). -/
theorem test_de2000_completion :
    (testState (exec .de2000 (testRunning .de2000 1 testLoaded))).res1 = testReg 0 ∧
    testStatus (exec .de2000 { testRunning .de2000 1 testLoaded with status := ⟨true, false, true, .none⟩ }) = 0x006 := by
  decide +kernel

/-- 60_exceptions.md R263: DE2000 checks operand B too. -/
theorem test_de2000_operand_b :
    testStatus (exec .de2000 { testLoaded with opbB := testReg 0xFFF0000000000000 }) = 0x302 ∧
    testStatus (exec .nearest { testLoaded with opbB := testReg 0xFFF0000000000000 }) = 0x001 := by decide +kernel

/-- 41_distance.md R154: RES2 is zero. -/
theorem test_nearest_completion :
    (testState (exec .nearest (testRunning .nearest 1 testLoaded))).res2 = testReg 0 := by decide +kernel

/-- V-F-NR-9: entries 0 and 1 black, black as the operand: the lower index wins. The elementary functions are the
witness's constants. -/
theorem test_nearest_tie :
    (nearest (bindingParams witnessBinding) { witnessBinding.palette with white := ⟨0, 0, 0⟩ } ⟨0, 0, 0⟩).1 = 0 := by
  decide +kernel

/-! ### Arithmetic, packer and host -/

/-- 0.1 + 0.2 is 0x3FD3333333333334 in binary64; `1.0 / 3.0` is 0x3FD5555555555555; sqrt(2.0) is 0x3FF6A09E667F3BCD. -/
theorem test_float_rounding :
    fadd (flit 1 1) (flit 2 1) = 0x3FD3333333333334 ∧ fdiv (fnat 1) (fnat 3) = 0x3FD5555555555555 ∧
    fsqrt (fnat 2) = 0x3FF6A09E667F3BCD := by decide +kernel

/-- The table of common values: 0.1, 0.2, 0.4, 0.5, 0.6, 0.9, 1.5 and 0.04045. -/
theorem test_float_literals :
    flit 1 1 = 0x3FB999999999999A ∧ flit 2 1 = 0x3FC999999999999A ∧ flit 4 1 = 0x3FD999999999999A ∧
    flit 5 1 = 0x3FE0000000000000 ∧ flit 6 1 = 0x3FE3333333333333 ∧ flit 9 1 = 0x3FECCCCCCCCCCCCD ∧
    flit 15 1 = 0x3FF8000000000000 ∧ flit 4045 5 = 0x3FA4B5DCC63F1412 := by decide +kernel

/-- V-F-PK-6, all twelve values. -/
theorem test_bytePos :
    bytePos true 0 0 = 134463 ∧ bytePos false 0 0 = 64 ∧ bytePos true 598 0 = 134164 ∧ bytePos false 598 0 = 363 ∧
    bytePos true 0 447 = 363 ∧ bytePos false 0 447 = 134164 ∧ bytePos true 598 447 = 64 ∧
    bytePos false 598 447 = 134463 ∧ bytePos true 2 1 = 134162 ∧ bytePos false 2 1 = 365 ∧
    bytePos true 300 224 = 67113 ∧ bytePos false 300 224 = 67414 := by decide

/-- V-F-CV-1: the first byte of the grey image is 0x14. -/
theorem test_packedByte : packedByte 1 (indexNibble 4) = 0x14 := by decide

/-- V-F-PK-8: header bytes 0..11 with TIMESTAMP 0x0123456789ABCDEF. -/
theorem test_header :
    (headerBytes 0x0123456789ABCDEF).take 13 =
      [0x1A, 0x1A, 0xFA, 0xFA, 0xEF, 0xCD, 0xAB, 0x89, 0x67, 0x45, 0x23, 0x01, 0x00] := by decide

/-- V-F-CT-3 and V-F-CT-7: the word 0x06 while idle and 0xFF while busy. -/
theorem test_illegal_words :
    testStatus (hostWrite 0x000 8 0x06 { State.reset with status := ⟨false, true, false, .none⟩ }) = 0x102 ∧
    testStatus (hostWrite 0x000 8 0xFF { State.reset with status := ⟨true, false, false, .none⟩ }) = 0x005 := by decide

/-- V-F-CT-12, V-F-CT-17 and V-F-CT-18: CMD, CONFIG and SRC_W after reset. -/
theorem test_reads_after_reset :
    (testState (hostRead 0x000 8 State.reset)).replies = [0] ∧ (testState (hostRead 0x010 8 State.reset)).replies = [1] ∧
    (testState (hostRead 0x018 8 State.reset)).replies = [0] := by decide

/-- V-F-CT-14, V-F-CT-15 and V-F-CT-16: a narrow access to STATUS, a reserved offset, a misaligned one; V-F-CT-10: an
input written while busy. -/
theorem test_host_faults :
    hostRead 0x008 4 State.reset = .fault .badAccess ∧ hostRead 0x078 8 State.reset = .fault .badAccess ∧
    hostRead 0x300001 2 State.reset = .fault .badAccess ∧ hostRead 0x128 8 State.reset = .fault .badAccess ∧
    hostWrite 0x030 8 0x3FE0000000000000 { State.reset with status := ⟨true, false, false, .none⟩ } =
      .fault .hostHazard := ⟨rfl, rfl, rfl, rfl, rfl⟩

/-- The reset state with a blue channel of 1.0 in palette entry 6. -/
def testPaletteState : State :=
  { State.reset with palette := { State.reset.palette with orange := ⟨0, 0, 0x3FF0000000000000⟩ } }

/-- 10_state.md R21, R30: PAL_6_B answers at 0x120 and BAD_ACCESS is recorded (log 13); PAL_6_G at 0x118 records nothing. -/
theorem test_last_palette_register :
    (testState (hostRead 0x120 8 testPaletteState)).replies = [0x3FF0000000000000] ∧
    (testState (hostRead 0x120 8 State.reset)).faults = [.badAccess] ∧
    (testState (hostWrite 0x120 8 5 State.reset)).faults = [.badAccess] ∧
    (testState (hostRead 0x118 8 State.reset)).faults = [] := ⟨rfl, rfl, rfl, rfl⟩

/-- 44_control.md R245: a host read of an unwritten SRC byte, and of an unwritten FRAME byte with BUSY = 0. -/
theorem test_unwritten_window_reads :
    hostRead 0x100000 1 State.reset = .fault .readUnwritten ∧ hostRead 0x300000 8 State.reset = .fault .readUnwritten :=
  ⟨rfl, rfl⟩

/-- 20_memory.md R63: `wr32 SRC+0` of pixel (R 0x11, G 0x22, B 0x33, A 0x44), read back in two halves. -/
theorem test_setpix_bytes :
    (testState (hostRead 0x100000 2 (testState (hostAct (setpix 0 0 0x11 0x22 0x33 0x44) State.reset)))).replies =
      [0x2211] ∧
    (testState (hostRead 0x100002 2 (testState (hostAct (setpix 0 0 0x11 0x22 0x33 0x44) State.reset)))).replies =
      [0x4433] := by decide

/-- The placed command is what the very next step runs: CONVERT after reset is a dimension mismatch; GAMMA after reset meets
an unwritten operand, which decides (V-F-CT-8, log 1); with operand A written it starts (V-F-CT-20). -/
theorem test_withFetchWord :
    testStatus (step (State.reset.withFetchWord 64 0x01)) = 0x202 ∧
    testStatus (step (State.reset.withFetchWord 64 0x02)) = 0x000 ∧
    (testState (step (State.reset.withFetchWord 64 0x02))).faults = [.readUnwritten] ∧
    testStatus (step (testLoaded.withFetchWord 64 0x02)) = 0x001 := by decide +kernel

/-- 60_exceptions.md R268: an unwritten OPA_G decides before the NaN in OPA_R does. -/
theorem test_unwritten_before_nonfinite :
    testStatus (exec .lab { State.reset with opaR := testReg 0x7FF8000000000000, opaB := testReg 0 }) = 0x000 := by
  decide +kernel

/-! ### Witnesses: encoding and steps -/

theorem witness_DecodeAndEncodeAgree : Instr.nop.wellFormed = true ∧ Instr.nearest.wellFormed = true := by decide

/-- One state per clause of StepRunsTheDecodedCommand and of IdleEngineTakesNoStep. -/
theorem witness_StepRunsTheDecodedCommand :
    (∃ s : State, s.turn = .host ∧ s.host = .write 0x000 8 0x01 :: [.poll] ∧ decode 0x01 = .ok .convert) ∧
    (∃ s : State, s.turn = .engine ∧ s.phase = .run ∧ s.active = some .lab) :=
  ⟨⟨{ State.reset with host := .write 0x000 8 0x01 :: [.poll] }, rfl, rfl, by decide⟩,
    ⟨testRunning .lab 3 State.reset, rfl, rfl, rfl⟩⟩

theorem witness_IdleEngineTakesNoStep : ∃ s : State, s.turn = .engine ∧ s.phase = .idle :=
  ⟨{ State.reset with turn := .engine }, rfl, rfl⟩

/-! ### Witnesses: acceptance -/

theorem witness_NopAnswersDoneWithNoError :
    Ready State.reset ∧ (∃ s : State, s.turn = .host ∧ s.status.busy = true) ∧ ∃ s : State, s.turn = .engine :=
  ⟨⟨rfl, rfl⟩, ⟨{ testRunning .lab 2 State.reset with turn := .host }, rfl, rfl⟩, ⟨testRunning .lab 2 State.reset, rfl⟩⟩

/-- Each of the four direct commands. -/
theorem witness_DirectCommandIsAccepted :
    ∀ i ∈ [Instr.gamma, .lab, .de2000, .nearest],
      IsDirect i ∧ Ready testLoaded ∧ AllRegsWritten (commandRegs i testLoaded) ∧
        AllRegsFinite (commandRegs i testLoaded) := by
  intro i hi
  simp only [List.mem_cons, List.not_mem_nil, or_false] at hi
  rcases hi with rfl | rfl | rfl | rfl <;>
    exact ⟨by simp [IsDirect], ⟨rfl, rfl⟩, rfl, by unfold AllRegsFinite; decide +kernel⟩

/-- A NaN in OPA_R, and an infinity in the last register that DE2000 reads. -/
theorem witness_NonfiniteOperandIsRejected :
    (∃ s : State, Ready s ∧ AllRegsWritten (commandRegs .gamma s) ∧ ∃ r ∈ commandRegs .gamma s, fisNaN r.value = true) ∧
    (∃ s : State, Ready s ∧ AllRegsWritten (commandRegs .de2000 s) ∧
      ∃ r ∈ commandRegs .de2000 s, fisInf r.value = true) :=
  ⟨⟨{ testLoaded with opaR := testReg 0x7FF8000000000000 }, ⟨rfl, rfl⟩, rfl, testReg 0x7FF8000000000000,
      by simp [commandRegs, operandRegsA], by decide +kernel⟩,
    ⟨{ testLoaded with opbB := testReg 0xFFF0000000000000 }, ⟨rfl, rfl⟩, rfl, testReg 0xFFF0000000000000,
      by simp [commandRegs, operandRegsAB], by decide +kernel⟩⟩

/-- Every register unwritten, and the last register unwritten beside a NaN. -/
theorem witness_UnwrittenOperandIsRecorded :
    (IsDirect .lab ∧ Ready State.reset ∧ anyUnwritten (commandRegs .lab State.reset) = true) ∧
    ∃ s : State, IsDirect .de2000 ∧ Ready s ∧ anyUnwritten (commandRegs .de2000 s) = true ∧
      anyNonfinite (commandRegs .de2000 s) = true :=
  ⟨⟨by simp [IsDirect], ⟨rfl, rfl⟩, rfl⟩,
    ⟨{ testLoaded with opaR := testReg 0x7FF8000000000000, opbB := unwrittenReg }, by simp [IsDirect], ⟨rfl, rfl⟩, rfl,
      by decide +kernel⟩⟩

/-- The height alone differs, the width alone differs, and a difference above the low bits. -/
theorem witness_DimensionMismatchChangesOnlyStatus :
    (∃ s : State, Ready s ∧ s.srcW.toNat = 600 ∧ s.srcH.toNat ≠ 448) ∧
    (∃ s : State, Ready s ∧ s.srcW.toNat ≠ 600 ∧ s.srcH.toNat = 448) ∧
    (∃ s : State, Ready s ∧ s.srcW = 0x8000000000000258 ∧ s.srcW.toNat ≠ 600) :=
  ⟨⟨{ State.reset with srcW := 600, srcH := 449 }, ⟨rfl, rfl⟩, by decide, by decide⟩,
    ⟨{ State.reset with srcW := 601, srcH := 448 }, ⟨rfl, rfl⟩, by decide, by decide⟩,
    ⟨{ State.reset with srcW := 0x8000000000000258 }, ⟨rfl, rfl⟩, rfl, by decide⟩⟩

theorem witness_ConvertIsAccepted : ∃ s : State, Ready s ∧ s.srcW.toNat = 600 ∧ s.srcH.toNat = 448 :=
  ⟨{ State.reset with srcW := 600, srcH := 448 }, ⟨rfl, rfl⟩, by decide, by decide⟩

/-- The lowest and the highest illegal opcode, and the lowest and the highest reserved bit; both values of BUSY. -/
theorem witness_IllegalWordChangesOnlyStatus :
    0x06 ≤ (opField 0x06).toNat ∧ 0x06 ≤ (opField 0xFF).toNat ∧ rsvField 0x100 ≠ 0 ∧ rsvField 0x8000000000000000 ≠ 0 ∧
    State.reset.status.busy = false ∧ (testRunning .lab 2 State.reset).status.busy = true := by decide

theorem witness_CommandWhileBusyOnlySetsOverrun :
    (∃ s : State, s.turn = .host ∧ s.status.busy = true) ∧ Ready State.reset :=
  ⟨⟨{ testRunning .lab 2 State.reset with turn := .host }, rfl, rfl⟩, rfl, rfl⟩

/-- One state and word for each of the three error codes. -/
theorem witness_ErrorsLeaveEverythingElse :
    ∀ p ∈ [(testLoaded, (0x06 : Word)), (testLoaded, 0x01), ({ testLoaded with opaR := testReg 0x7FF8000000000000 }, 0x02)],
      Ready p.1 ∧ AllRegsWritten (operandRegsAB p.1) ∧
        ∃ t, hostWrite 0x000 8 p.2 p.1 = .next t ∧ t.status.err ≠ .none := by
  intro p hp
  simp only [List.mem_cons, List.not_mem_nil, or_false] at hp
  rcases hp with rfl | rfl | rfl <;>
    exact ⟨⟨rfl, rfl⟩, rfl, _, eq_of_testNext (by decide +kernel), by decide +kernel⟩

/-! ### Witnesses: completion -/

theorem witness_EngineWaitsUntilItsLastStep :
    ∀ i ∈ [Instr.convert, .nearest], i ≠ .nop ∧ (testRunning i 2 State.reset).turn = .engine ∧
      (testRunning i 2 State.reset).phase = .run ∧ (testRunning i 2 State.reset).active = some i ∧
      1 < (testRunning i 2 State.reset).latLeft := by
  intro i hi
  simp only [List.mem_cons, List.not_mem_nil, or_false] at hi
  rcases hi with rfl | rfl <;> exact ⟨by decide, rfl, rfl, rfl, by decide⟩

/-- The completing states of the four direct commands, with the registers written (GammaCompletes, LabCompletes,
De2000Completes, NearestCompletes) and with none written (DirectCompletionAlwaysAnswers). -/
theorem witness_DirectCompletion :
    ∀ i ∈ [Instr.gamma, .lab, .de2000, .nearest],
      IsDirect i ∧ Completing i (testRunning i 1 testLoaded) ∧ AllRegsWritten (operandRegsAB (testRunning i 1 testLoaded)) ∧
        AllRegsWritten (operandRegsA (testRunning i 1 testLoaded)) ∧ Completing i (testRunning i 1 State.reset) ∧
        anyUnwritten (commandRegs i (testRunning i 1 State.reset)) = true := by
  intro i hi
  simp only [List.mem_cons, List.not_mem_nil, or_false] at hi
  rcases hi with rfl | rfl | rfl | rfl <;>
    exact ⟨by simp [IsDirect], ⟨rfl, rfl, rfl, Nat.le_refl 1⟩, rfl, rfl, ⟨rfl, rfl, rfl, Nat.le_refl 1⟩, rfl⟩

/-- A direct command with `n + 1` engine steps left, the given schedule, and a polling host that has five turns left. -/
def testPolling (n : Nat) (turn : Agent) (schedule : List Agent) : State :=
  { testRunning .lab (n + 1) testLoaded with
    turn := turn, schedule := schedule, hostTurns := 5, host := [.poll] }

/-- One step left, and three: the schedule all the engine's, and exhausted with either agent's turn. -/
theorem witness_DirectCommandCompletesAfterItsLatency :
    ∀ n ∈ [0, 2], ∀ p ∈ [(Agent.engine, List.replicate n Agent.engine), (.engine, []), (.host, [])],
      IsDirect .lab ∧ (testPolling n p.1 p.2).turn = p.1 ∧ (testPolling n p.1 p.2).schedule = p.2 ∧
      (testPolling n p.1 p.2).phase = .run ∧ (testPolling n p.1 p.2).active = some .lab ∧
      (testPolling n p.1 p.2).latLeft = n + 1 ∧ (∀ op ∈ (testPolling n p.1 p.2).host, op = .poll) ∧
      AllRegsWritten (commandRegs .lab (testPolling n p.1 p.2)) := by
  intro n _ p _
  exact ⟨by simp [IsDirect], rfl, rfl, rfl, rfl, rfl, by simp [testPolling], rfl⟩

/-- 95_test_vectors.md P5, end state: a NOP that comes while a CONVERT still runs sets OVR, and the host has that turn where a
free number gives it one (70_reset_and_hazards.md R296). -/
theorem test_host_turn_while_running :
    (nextTurn { testRunning .convert 1 State.reset with hostTurns := 1 }).turn = .host ∧
    (nextTurn { testRunning .convert 1 State.reset with hostTurns := 0 }).turn = .engine ∧
    testStatus (step { testRunning .convert 1 State.reset with turn := .host, host := [cmd .nop] }) = 0x005 := by
  decide

/-! ### Witnesses: CONVERT -/

/-- SRC filled with one byte value. -/
@[irreducible] def testSource (v : Byte) : List Host.Cell :=
  storeWriteAll [] Config.SRC_BASE (List.replicate Config.SRC_LEN v)

theorem testSource_wf (v : Byte) : Memory.wf (testSource v) = true := by
  unfold testSource
  exact storeWf_storeWriteAll _ _ _ rfl

theorem testSource_read (v : Byte) (k : Nat) (h : k < Config.SRC_LEN) :
    storeRead (testSource v) (Config.SRC_BASE + k) = some v := by
  unfold testSource
  generalize Config.SRC_LEN = n at h ⊢
  rw [storeRead_storeWriteAll, List.length_replicate, if_pos ⟨Nat.le_add_right _ _, Nat.add_lt_add_left h _⟩,
    Nat.add_sub_cancel_left, List.getElem?_replicate, if_pos h]

/-- The last step of a CONVERT of an image whose bytes all have one value. -/
def testConverting (v : Byte) : State := { testRunning .convert 1 State.reset with mem := testSource v }

theorem testConverting_src (v : Byte) (p c : Nat) (hp : p < Config.numPixels) (hc : c < 4) :
    srcByte (testConverting v) (4 * p + c) = some v :=
  testSource_read v (4 * p + c) (by simp only [Config.numPixels, Config.SRC_LEN] at *; omega)

theorem testConverting_completing (v : Byte) : Completing .convert (testConverting v) :=
  ⟨rfl, rfl, rfl, Nat.le_refl 1⟩

theorem testConverting_written (v : Byte) : SourceWritten (testConverting v) := fun p hp =>
  ⟨by rw [← Nat.add_zero (4 * p), testConverting_src v p 0 hp (by decide)]; rfl,
    by rw [testConverting_src v p 1 hp (by decide)]; rfl, by rw [testConverting_src v p 2 hp (by decide)]; rfl⟩

/-- An image with its R, G and B bytes written is converted. -/
theorem convert_answers {s : State} (hc : Completing .convert s) (hs : SourceWritten s) :
    ∃ t, exec .convert s = .next t := by
  obtain ⟨h1, h2, h3, h4⟩ := hc
  obtain ⟨sc, hsc⟩ := convertScan_total params s.palette (configRot180 s) (srcByte s) s.scan hs
  show ∃ t, execConvert s = .next t
  rcases execConvert_cases s with ⟨h, _⟩ | ⟨_, h, _⟩ | ⟨_, _, _, h, _⟩ | ⟨_, _, _, _, h⟩
  · rw [h1] at h; cases h
  · exact absurd ⟨h2, h3⟩ h
  · omega
  · rcases h with ⟨_, _, h⟩ | ⟨h, _⟩
    · exact ⟨_, h⟩
    · rw [hsc] at h; cases h

theorem witness_ConvertPublishesAWholeFrame :
    ∃ s : State, Completing .convert s ∧ SourceWritten s ∧ storeWf s.scan.fb = true ∧
      storeRead s.mem (0x100000 + 4 * 0) = some 128 ∧ storeRead s.mem (0x100000 + 4 * 268799 + 2) = some 128 :=
  ⟨testConverting 128, testConverting_completing 128, testConverting_written 128, rfl,
    testConverting_src 128 0 0 (by decide) (by decide), testConverting_src 128 268799 2 (by decide) (by decide)⟩

/-- 42_ditherer.md R183: the first pixel's bytes 255, 0, 10 load as 1.0, 0.0 and 10/255/12.92, in this order; alpha is not
read. -/
theorem test_load_order :
    (loadPixels witnessBinding.elem (fun k => [(255 : Byte), 0, 10][k]?) 1 0 []).bind (fun pix => readPixel pix 0) =
      some ⟨0x3FF0000000000000, 0, 0x3F68DD6C15B1D4B4⟩ := by decide +kernel

theorem witness_BodyNibblesArePaletteIndices :
    ∃ s t : State, Completing .convert s ∧ storeWf s.scan.fb = true ∧ exec .convert s = .next t :=
  ⟨testConverting 128, _, testConverting_completing 128, rfl,
    (convert_answers (testConverting_completing 128) (testConverting_written 128)).choose_spec⟩

/-- The first byte of the first pixel and the last colour byte of the last one. -/
theorem witness_UnwrittenSourceByteFaults :
    ∃ s : State, Completing .convert s ∧ srcByte s (4 * 0 + 0) = none ∧ srcByte s (4 * 268799 + 2) = none :=
  ⟨testRunning .convert 1 State.reset, ⟨rfl, rfl, rfl, Nat.le_refl 1⟩, rfl, rfl⟩

theorem witness_WhiteImageGivesAllOnes :
    ∃ s : State, Completing .convert s ∧ storeWf s.scan.fb = true ∧ WhiteKept params s.palette ∧
      configRot180 s = true ∧ ∀ p c, p < Config.numPixels → c < 3 → srcByte s (4 * p + c) = some 255 :=
  ⟨testConverting 255, testConverting_completing 255, rfl, binding.property.white, rfl,
    fun p c hp hc => testConverting_src 255 p c hp (Nat.lt_succ_of_lt hc)⟩

/-- A second state with the same R, G and B bytes: another TIMESTAMP, another LATCH, and the alpha byte of the first pixel
overwritten. -/
def testConvertingToo (v : Byte) : State :=
  { testConverting v with
    timestamp := 0x65000000, scan := { scanStart [] with latch := ⟨6, false⟩ }
    mem := storeWrite (testSource v) (Config.SRC_BASE + 3) 7 }

theorem testConvertingToo_src (v : Byte) (p c : Nat) (hc : c < 3) :
    srcByte (testConvertingToo v) (4 * p + c) = srcByte (testConverting v) (4 * p + c) :=
  storeRead_storeWrite_other (testSource v) 7 (by omega)

theorem witness_TimestampReachesOnlyTheHeader :
    ∃ s s' t : State, Completing .convert s ∧ Completing .convert s' ∧ storeWf s.scan.fb = true ∧
      storeWf s'.scan.fb = true ∧ s'.palette = s.palette ∧ configRot180 s' = configRot180 s ∧
      (∀ p c, p < Config.numPixels → c < 3 → srcByte s' (4 * p + c) = srcByte s (4 * p + c)) ∧
      exec .convert s = .next t ∧ s'.timestamp ≠ s.timestamp ∧ s'.scan.latch ≠ s.scan.latch :=
  ⟨testConverting 128, testConvertingToo 128, _, testConverting_completing 128, ⟨rfl, rfl, rfl, Nat.le_refl 1⟩, rfl, rfl,
    rfl, rfl, fun p c _ hc => testConvertingToo_src 128 p c hc,
    (convert_answers (testConverting_completing 128) (testConverting_written 128)).choose_spec,
    (by decide : (0x65000000 : Word) ≠ 0), (by decide : (⟨6, false⟩ : Latch) ≠ ⟨0, true⟩)⟩

/-! ### Witnesses: frames -/

/-- An acceptance, a waiting step and a completion. -/
theorem witness_DirectCommandFrame :
    ∀ s ∈ [State.reset, testRunning .lab 2 State.reset, testRunning .lab 1 testLoaded],
      IsDirect .lab ∧ ∃ t, exec .lab s = .next t := by
  intro s hs
  simp only [List.mem_cons, List.not_mem_nil, or_false] at hs
  rcases hs with rfl | rfl | rfl <;> exact ⟨by simp [IsDirect], _, eq_of_testNext rfl⟩

/-- An acceptance, a waiting step and a completion. -/
theorem witness_ConvertFrame :
    ∀ s ∈ [State.reset, testRunning .convert 2 State.reset, testConverting 128],
      (∀ k, (storeRead s.scan.fb k).isSome → k < Config.FRAME_LEN) ∧ ∃ t, exec .convert s = .next t := by
  intro s hs
  simp only [List.mem_cons, List.not_mem_nil, or_false] at hs
  rcases hs with rfl | rfl | rfl
  · exact ⟨fun k h => by simp [State.reset, scanStart] at h, _, eq_of_testNext rfl⟩
  · exact ⟨fun k h => by simp [testRunning, State.reset, scanStart] at h, _, eq_of_testNext rfl⟩
  · exact ⟨fun k h => by simp [testConverting, testRunning, State.reset, scanStart] at h,
      convert_answers (testConverting_completing 128) (testConverting_written 128)⟩

/-! ### Witnesses: arithmetic -/

/-- Above the bounds, at both bounds, and a NaN. -/
theorem witness_ClampStaysWithinItsBounds :
    (fle (fnat 0) (fnat 1) = true ∧ fisNaN (fnat 2) = false) ∧
    (fle (fnat 0) (fnat 0) = true ∧ fle (fnat 0) (fnat 1) = true ∧ fle (fnat 1) (fnat 1) = true) ∧
    fisNaN 0x7FF8000000000000 = true := by decide +kernel

theorem witness_GammaLinearFixesZeroAndOne : ∃ E : Elem, ElemLaws E := ⟨_, witness_elemLaws⟩

/-- The threshold itself, -0.0 and -0.1. -/
theorem witness_ThresholdTakesTheLinearBranch :
    fle (flit 4045 5) (flit 4045 5) = true ∧ fle 0x8000000000000000 (flit 4045 5) = true ∧
    fle 0xBFB999999999999A (flit 4045 5) = true := by decide +kernel

/-- A palette whose choice has a predecessor. -/
theorem witness_NearestIsTheFirstSmallest :
    (0 : Fin 7) < (nearest (bindingParams witnessBinding) witnessBinding.palette whiteColor).1 := by
  rw [witness_nearest]
  decide

/-- Two Lab colours with chroma, and the witness's elementary functions. -/
theorem witness_ColorDifferenceIsSymmetric :
    ∃ (E : Elem) (p q : LabColor) (g h1 h2 : F64), ElemLaws E ∧ p ≠ q ∧
      g = gCorrection E (fmean (chroma p.a p.b) (chroma q.a q.b)) ∧
      h1 = hueDeg E p.b (fmul p.a (fadd (fnat 1) g)) ∧ h2 = hueDeg E q.b (fmul q.a (fadd (fnat 1) g)) ∧
      fisFinite (fmul (fdiv (hueDelta h1 h2) (fnat 2)) deg2rad) = true :=
  ⟨witnessBinding.elem, ⟨fnat 50, fnat 10, fnat 20⟩, ⟨fnat 60, fneg (fnat 30), fnat 5⟩, _, _, _, witness_elemLaws,
    by decide +kernel, rfl, rfl, rfl, by decide +kernel⟩

/-- Its second clause: one Lab colour with chroma, twice, whose distance is no NaN. -/
theorem witness_ColorDifferenceIsZeroOnEquals :
    ∃ (p : LabColor) (g h : F64), g = gCorrection witnessBinding.elem (fmean (chroma p.a p.b) (chroma p.a p.b)) ∧
      h = hueDeg witnessBinding.elem p.b (fmul p.a (fadd (fnat 1) g)) ∧
      fisFinite (fmul (fdiv (hueDelta h h) (fnat 2)) deg2rad) = true ∧
      fisNaN (labDifference witnessBinding.elem p p) = false :=
  ⟨⟨fnat 50, fnat 10, fnat 20⟩, _, _, rfl, rfl, by decide +kernel, by decide +kernel⟩

/-! ### Witnesses: ditherer and packer -/

/-- The last column, the first column and the last row each drop a tap; inside the image none is dropped. -/
theorem witness_OutOfRangeDiffusionIsDropped :
    (∃ t ∈ kernelTaps, tapTarget 599 0 t = none) ∧ (∃ t ∈ kernelTaps, tapTarget 0 0 t = none) ∧
    (∃ t ∈ kernelTaps, tapTarget 1 447 t = none) ∧ ∀ t ∈ kernelTaps, tapTarget 598 446 t ≠ none := by decide +kernel

/-- A PIX of the four pixels that the cursor (0, 0) reaches. -/
def testPix : Store F64 :=
  writePixel (writePixel (writePixel (writePixel [] (pixelNumber 0 0) ⟨flit 2 1, flit 4 1, flit 6 1⟩)
    (pixelNumber 1 0) whiteColor) (pixelNumber 0 1) whiteColor) (pixelNumber 1 1) whiteColor

/-- Whether there is a value. -/
theorem exists_of_isSome {α : Type} {o : Option α} (h : o.isSome = true) : ∃ v, o = some v :=
  Option.isSome_iff_exists.1 h

theorem witness_DiffusionUpdatesExactlyTheNeighbours :
    ∃ (P : Params) (pal : Palette) (rot : Bool) (sc sc' : Scan) (p v : LinearColor) (t : KernelTap) (q : Nat),
      sc.cursor.x.val = 0 ∧ sc.cursor.y.val = 0 ∧ scanPixel P pal rot sc = some sc' ∧
      readPixel sc.pix (pixelNumber 0 0) = some p ∧ t ∈ kernelTaps ∧ tapTarget 0 0 t = some q ∧
      readPixel sc.pix q = some v ∧ ∀ t ∈ kernelTaps, tapTarget 0 0 t ≠ some 2 := by
  obtain ⟨sc', h⟩ := exists_of_isSome (by decide +kernel :
    (scanPixel (bindingParams witnessBinding) witnessBinding.palette true (scanStart testPix)).isSome = true)
  exact ⟨_, _, true, scanStart testPix, sc', ⟨flit 2 1, flit 4 1, flit 6 1⟩, whiteColor, ⟨1, 0, fdiv (fnat 7) (fnat 16)⟩, 1,
    rfl, rfl, h, by decide +kernel, List.mem_cons_self, by decide +kernel, by decide +kernel, by decide +kernel⟩

/-- Two empty frame images, and a first pixel that both orientations complete. -/
theorem witness_OrientationChangesOnlyPositions :
    (∀ xe y, xe < 600 → xe % 2 = 0 → y < 448 →
      storeRead ([] : Store Byte) (bytePos true xe y) = storeRead ([] : Store Byte) (bytePos false xe y)) ∧
    ∃ rT rF,
      scanPixels (bindingParams witnessBinding) witnessBinding.palette true 1 (scanStart testPix) = some rT ∧
      scanPixels (bindingParams witnessBinding) witnessBinding.palette false 1 (scanStart testPix) = some rF := by
  refine ⟨fun _ _ _ _ _ => by rw [storeRead_nil, storeRead_nil], ?_⟩
  obtain ⟨rT, hT⟩ := exists_of_isSome (by decide +kernel :
    (scanPixels (bindingParams witnessBinding) witnessBinding.palette true 1 (scanStart testPix)).isSome = true)
  obtain ⟨rF, hF⟩ := exists_of_isSome (by decide +kernel :
    (scanPixels (bindingParams witnessBinding) witnessBinding.palette false 1 (scanStart testPix)).isSome = true)
  exact ⟨rT, rF, hT, hF⟩

/-- A cursor at each boundary of the four clauses. -/
theorem witness_CursorAdvancesInRowMajorOrder :
    (∃ c : Cursor, c.x.val = 598 ∧ c.y.val = 447) ∧ (∃ c : Cursor, c.x.val = 599 ∧ c.y.val = 446) ∧
    (∃ c : Cursor, c.x.val = 599 ∧ c.y.val = 447) :=
  ⟨⟨⟨598, 447⟩, by decide, by decide⟩, ⟨⟨599, 446⟩, by decide, by decide⟩, ⟨⟨599, 447⟩, by decide, by decide⟩⟩

theorem witness_PairPacksLowThenHighNibble :
    ∃ (sc sc1 sc2 : Scan) (xo : Fin Config.W), sc.cursor.x.val % 2 = 0 ∧ xo.val = sc.cursor.x.val + 1 ∧
      packIndex true 4 sc = some sc1 ∧
      packIndex true 1 { sc1 with cursor := { sc1.cursor with x := xo } } = some sc2 :=
  ⟨scanStart [], _, _, 1, by decide, by decide, rfl, rfl⟩

/-- The first and the last pair, and the first and the last body offset. -/
theorem witness_PairsMapOntoTheBody :
    ((0 : Nat) < 600 ∧ (0 : Nat) % 2 = 0 ∧ (0 : Nat) < 448) ∧ ((598 : Nat) < 600 ∧ (598 : Nat) % 2 = 0 ∧ (447 : Nat) < 448) ∧
    bytePos true 598 447 = 64 ∧ bytePos true 0 0 = 134463 := by decide

/-! ### Witnesses: host transactions -/

/-- A written and an unwritten operand register, and result registers of both kinds with BUSY = 0. -/
theorem witness_RegisterReadsReturnTheirValue :
    testLoaded.opaR.unwritten = false ∧ testLoaded.opbB.unwritten = false ∧ State.reset.opaR.unwritten = true ∧
    State.reset.status.busy = false ∧ State.reset.res0.unwritten = true ∧
    ({ State.reset with res2 := testReg 5 } : State).res2.unwritten = false :=
  ⟨rfl, rfl, rfl, rfl, rfl, rfl⟩

/-- 60_exceptions.md R260: the four codes. -/
theorem witness_StatusWordLayout :
    statusReset.err = .none ∧ (statusAnswered .illegalCmd statusReset).err = .illegalCmd ∧
    (statusAnswered .dimMismatch statusReset).err = .dimMismatch ∧
    (statusAnswered .nonfiniteOperand statusReset).err = .nonfiniteOperand := by decide

theorem witness_InputWritesStoreTheirValue : State.reset.status.busy = false := rfl

/-- Busy, with the first and the last byte of SRC, and the last aligned eight bytes. -/
theorem witness_InputWritesWhileBusyAreHazards :
    (testRunning .lab 2 State.reset).status.busy = true ∧
    (0x100000 % 1 = 0 ∧ 0x100000 + 1 - 1 ≤ 0x2067FF) ∧ (0x2067FF % 1 = 0 ∧ 0x2067FF + 1 - 1 ≤ 0x2067FF) ∧
    (0x2067F8 % 8 = 0 ∧ 0x2067F8 + 8 - 1 ≤ 0x2067FF) := by decide

/-- The palette registers at 0x108 and 0x118, and the first and the last byte of FRAME and its last aligned eight bytes. -/
theorem witness_WritesToReadOnlyStateAreIgnored :
    ((5 : Fin 7).val < 6 ∧ regOffset (.pal 5 2) = 0x108) ∧ ((1 : Fin 3).val < 2 ∧ regOffset (.pal 6 1) = 0x118) ∧
    (0x300000 % 1 = 0 ∧ 0x300000 + 1 - 1 ≤ 0x320D3F) ∧ (0x320D3F % 1 = 0 ∧ 0x320D3F + 1 - 1 ≤ 0x320D3F) ∧
    (0x320D38 % 8 = 0 ∧ 0x320D38 + 8 - 1 ≤ 0x320D3F) := by decide

/-- A reserved offset, the offset past the palette, a narrow register access, an access past the end of FRAME, a misaligned one; and the first offset
outside the block. -/
theorem witness_OtherAccessesAreBad :
    ∀ p ∈ [((0x078 : Nat), (8 : Nat)), (0x128, 8), (0x008, 4), (0x320D40, 1), (0x300001, 2)],
      p.1 < 0x400000 ∧ (p.2 = 8 → ∀ r, p.1 ≠ regOffset r) ∧
        ((p.2 = 1 ∨ p.2 = 2 ∨ p.2 = 4 ∨ p.2 = 8) → p.1 % p.2 = 0 →
          ¬(0x100000 ≤ p.1 ∧ p.1 + p.2 - 1 ≤ 0x2067FF) ∧ ¬(0x300000 ≤ p.1 ∧ p.1 + p.2 - 1 ≤ 0x320D3F)) := by
  intro p hp
  simp only [List.mem_cons, List.not_mem_nil, or_false] at hp
  rcases hp with rfl | rfl | rfl | rfl | rfl
  · refine ⟨by decide, fun _ r => ?_, by decide⟩
    cases r <;> simp only [regOffset] <;> omega
  · refine ⟨by decide, fun _ r => ?_, by decide⟩
    cases r <;> simp only [regOffset] <;> omega
  · exact ⟨by decide, fun h => absurd h (by decide), by decide⟩
  · exact ⟨by decide, fun h => absurd h (by decide), by decide⟩
  · exact ⟨by decide, fun h => absurd h (by decide), by decide⟩

theorem witness_ResultReadsWhileBusyAreFree :
    (testRunning .lab 2 State.reset).status.busy = true ∧ 0x300000 % 8 = 0 ∧ 0x300000 + 8 - 1 ≤ 0x320D3F := by decide

/-- The last four bytes of SRC for a write; for a read a written and an unwritten SRC byte, and the last FRAME byte. -/
theorem witness_SourceWritesReadBackLittleEndian :
    (State.reset.status.busy = false ∧ 0x2067FC % 4 = 0 ∧ 0x100000 ≤ 0x2067FC ∧ 0x2067FC + 4 - 1 ≤ 0x2067FF) ∧
    (∃ s : State, ∀ k, k < 1 → storeRead s.mem (0x100000 + k) = some ((0x5A : Word).extractLsb' (8 * k) 8)) ∧
    (∃ s : State, s.status.busy = false ∧
      ∀ k, k < 1 → storeRead s.mem (0x320D3F + k) = some ((0x11 : Word).extractLsb' (8 * k) 8)) ∧
    (∃ k, k < 1 ∧ storeRead State.reset.mem (0x100000 + k) = none) := by
  refine ⟨by decide, ⟨{ State.reset with mem := [(0x100000, 0x5A)] }, ?_⟩, ⟨{ State.reset with mem := [(0x320D3F, 0x11)] }, rfl, ?_⟩,
    0, by decide, rfl⟩
  · intro k hk
    obtain rfl : k = 0 := by omega
    rfl
  · intro k hk
    obtain rfl : k = 0 := by omega
    rfl

theorem witness_PollRepeatsWhileBusy :
    (∃ s : State, s.turn = .host ∧ s.host = [.poll] ∧ s.status.busy = true) ∧
    (∃ s : State, s.turn = .host ∧ s.host = [.poll] ∧ s.status.busy = false) :=
  ⟨⟨{ testRunning .lab 2 State.reset with turn := .host, host := [.poll] }, rfl, rfl, rfl⟩,
    ⟨{ State.reset with host := [.poll] }, rfl, rfl, rfl⟩⟩

/-! ### Witnesses: reset and invariants -/

theorem witness_ResetAbandonsTheRunningCommand :
    ∃ s : State, s.turn = .host ∧ s.host = [.reset, .poll] ∧ s.phase = .run :=
  ⟨{ testRunning .convert 2 State.reset with turn := .host, host := [.reset, .poll] }, rfl, rfl, rfl⟩

/-- A state with a command about to complete meets every invariant and steps. -/
theorem witness_Invariants :
    ∃ s t : State, StoresCanonical s ∧ StoresInRange s ∧ EngineConsistent s ∧ ParametersFixed s ∧ step s = .next t ∧
      s.phase = .run := by
  refine ⟨testRunning .lab 1 testLoaded, _, ⟨rfl, rfl, rfl⟩, ⟨?_, ?_, ?_⟩, ⟨?_, ?_⟩, ⟨rfl, rfl⟩, eq_of_testNext rfl, rfl⟩
  · intro a h; simp [testRunning, testLoaded, State.reset] at h
  · intro k h; simp [testRunning, testLoaded, State.reset, scanStart] at h
  · intro k h; simp [testRunning, testLoaded, State.reset, scanStart] at h
  · exact ⟨fun _ => rfl, fun _ => rfl⟩
  · exact fun _ => ⟨rfl, rfl, Nat.zero_lt_one, .lab, rfl, by decide, rfl, by unfold AllRegsFinite; decide +kernel⟩
end

section
/-! The laws of the machine's own binding, each under the name of the part it is about. `Config.constrained` is opaque,
so these are all that is known of the F_* functions and of the device's palette (logs 4 and 5). -/

namespace Sys2Proof.Machine

/-- 00_scope.md R12 (a) to (g), of this hardware's F_* functions. -/
theorem elemLaws_elemFns : ElemLaws elemFns := binding.property.elem

/-- 10_state.md R32(a), of this hardware's palette. -/
theorem paletteInUnit_devicePalette : paletteInUnit devicePalette = true := binding.property.inUnit

/-- 10_state.md R32(b), of this hardware's arithmetic and palette. -/
theorem whiteKept_params_devicePalette : WhiteKept params devicePalette := binding.property.white

/-- Settles O35: the machine's binding is drawn from the bindings that carry their laws. -/
theorem deviceBindingMeetsItsConstraints : Obligations.DeviceBindingMeetsItsConstraints :=
  ⟨elemLaws_elemFns, paletteInUnit_devicePalette, whiteKept_params_devicePalette⟩

end Sys2Proof.Machine
end

section
/-! What a step can do, said once: every agent's effect on the state with its guards, and the induction over a step that
each invariant of the state uses (10_state.md R36, R41; 44_control.md R240 to R248). -/

namespace Sys2Proof.Machine

/-- What the agent whose turn it is can do to the state, its entry taken off the host's queue: one constructor per effect,
with the guard under which the block has it. -/
inductive AgentEffect (s : State) : State → Prop where
  /-- Nothing but an answer to the host, with what it records, and the host's queue: reads, polls, writes that the block
  ignores, and an agent with nothing to do. -/
  | answered {t : State} (q : List HostOp) (h : OnlyReplied s t) : AgentEffect s { t with host := q }
  /-- A command word while a command runs. -/
  | overran (hb : s.status.busy = true) : AgentEffect s (overrun s)
  /-- A direct command that meets an unwritten operand. -/
  | operandUnwritten (hb : s.status.busy = false) : AgentEffect s (unwrittenOperand s)
  /-- A command word rejected with a code, or a NOP answered. -/
  | errorRaised (code : ErrCode) (hb : s.status.busy = false) : AgentEffect s (raiseError code s)
  /-- A command that starts. -/
  | started (i : Instr) (hb : s.status.busy = false) (hi : i ≠ .nop) (hw : AllRegsWritten (commandRegs i s))
      (hf : AllRegsFinite (commandRegs i s)) : AgentEffect s (startCommand i s)
  /-- An engine step before the completion step. -/
  | waited (hp : s.phase = .run) (hl : 1 < s.latLeft) : AgentEffect s (waitStep s)
  /-- The completion step of a direct command. -/
  | directCompleted (i : Instr) (r : Results) (hp : s.phase = .run) (ha : s.active = some i) (hl : s.latLeft ≤ 1) :
      AgentEffect s (completeDirect (commandRegs i s) r s)
  /-- The completion step of CONVERT. -/
  | convertCompleted (sc : Scan) (hp : s.phase = .run) (ha : s.active = some .convert) (hl : s.latLeft ≤ 1)
      (h : convertScan params s.palette (configRot180 s) (srcByte s) s.scan = some sc) :
      AgentEffect s (finishConvert sc s)
  /-- A host write to SRC. -/
  | sourceStored (a n : Nat) (v : Word) (hb : s.status.busy = false)
      (hw : inWindow Config.SRC_BASE Config.SRC_LEN a n = true) :
      AgentEffect s { s with mem := storeWriteAll s.mem a (bytesOf v n) }
  /-- A host write to an input register. -/
  | inputStored (w hh ts : Word) (a0 a1 a2 b0 b1 b2 : DataReg) (hb : s.status.busy = false) :
      AgentEffect s { s with
        srcW := w, srcH := hh, timestamp := ts, opaR := a0, opaG := a1, opaB := a2, opbR := b0, opbG := b1,
        opbB := b2 }
  /-- The reset input. -/
  | wasReset : AgentEffect s (resetBlock s)

theorem AgentEffect.stays (s : State) : AgentEffect s s := .answered s.host ⟨_, _, _, .inl rfl, rfl⟩

theorem AgentEffect.of_onlyReplied {s t : State} (h : OnlyReplied s t) : AgentEffect s t := .answered t.host h

theorem onlyReplied_noteReserved (r : RegName) (s : State) : OnlyReplied s (noteReserved r s) := by
  rcases noteReserved_cases r s with h | h <;> rw [h]
  · exact ⟨_, _, _, .inl rfl, rfl⟩
  · exact ⟨_, _, _, .inr (.inr rfl), rfl⟩

theorem anyNonfinite_of_finiteCheck {regs : List DataReg} (h : finiteCheck regs = none) : anyNonfinite regs = false := by
  simpa [finiteCheck] using h

/-- The acceptance of a command whose registers are checked has the effects of a CMD write. -/
theorem acceptCommand_effect {i : Instr} (hi : i ≠ .nop) {error : Option ErrCode} {s : State}
    (hf : error = none → AllRegsFinite (commandRegs i s)) :
    AgentEffect s (acceptCommand i (commandRegs i s) error s) := by
  rcases acceptCommand_cases i (commandRegs i s) error s with
    ⟨hb, h⟩ | ⟨hb, _, h⟩ | ⟨hb, _, code, _, h⟩ | ⟨hb, hw, he, h⟩ <;> rw [h]
  · exact .overran hb
  · exact .operandUnwritten hb
  · exact .errorRaised code hb
  · exact .started i hb hi hw (hf he)

/-- A direct command that answers has an effect of an acceptance or of an engine step. -/
theorem directCommand_effect {i : Instr} (hi : i ≠ .nop) {results : State → Results} {s t : State}
    (h : directCommand i (commandRegs i) results s = .next t) : AgentEffect s t := by
  rcases directCommand_cases i (commandRegs i) results s with
    ⟨_, hd⟩ | ⟨_, _, hd⟩ | ⟨_, hp, _, hl, hd⟩ | ⟨_, hp, ha, hl, hd⟩ <;> rw [hd] at h <;> cases h
  · exact acceptCommand_effect hi anyNonfinite_of_finiteCheck
  · exact .stays s
  · exact .waited hp hl
  · exact .directCompleted i _ hp ha hl

theorem execConvert_effect {s t : State} (h : execConvert s = .next t) : AgentEffect s t := by
  rcases execConvert_cases s with
    ⟨_, hd⟩ | ⟨_, _, hd⟩ | ⟨_, hp, _, hl, hd⟩ | ⟨_, hp, ha, hl, ⟨sc, hsc, hd⟩ | ⟨_, hd⟩⟩ <;> rw [hd] at h <;> cases h
  · exact acceptCommand_effect (i := .convert) (by decide) fun _ => rfl
  · exact .stays s
  · exact .waited hp hl
  · exact .convertCompleted sc hp ha hl hsc

theorem execNop_effect {s t : State} (h : execNop s = .next t) : AgentEffect s t := by
  rcases execNop_cases s with ⟨_, hd⟩ | ⟨_, hb, hd⟩ | ⟨_, hb, hd⟩ <;> rw [hd] at h <;> cases h
  · exact .stays s
  · exact .overran hb
  · exact .errorRaised .none hb

/-- Every command that answers has one of the effects (30_encoding.md R92). -/
theorem exec_effect {i : Instr} {s t : State} (h : exec i s = .next t) : AgentEffect s t := by
  cases i with
  | nop => exact execNop_effect h
  | convert => exact execConvert_effect h
  | gamma => exact directCommand_effect (i := .gamma) (by decide) h
  | lab => exact directCommand_effect (i := .lab) (by decide) h
  | de2000 => exact directCommand_effect (i := .de2000) (by decide) h
  | nearest => exact directCommand_effect (i := .nearest) (by decide) h

theorem rejectIllegal_effect (s : State) : AgentEffect s (rejectIllegal s) := by
  unfold rejectIllegal
  split
  · next hb => exact .overran hb
  · next hb => exact .errorRaised .illegalCmd (by simpa using hb)

theorem submit_effect {w : Word} {s t : State} (h : submit w s = .next t) : AgentEffect s t := by
  unfold submit at h
  split at h
  · exact exec_effect h
  · cases h; exact rejectIllegal_effect s

theorem hostWrite_effect {a n : Nat} {v : Word} {s t : State} (h : hostWrite a n v s = .next t) : AgentEffect s t := by
  rcases hostWrite_next h with
    h | ⟨hb, hw, rfl⟩ | rfl | ⟨r, rfl⟩ | ⟨hb, w, hh, ts, a0, a1, a2, b0, b1, b2, rfl⟩
  · exact submit_effect h
  · exact .sourceStored a n v hb hw
  · exact .stays t
  · exact .of_onlyReplied (onlyReplied_noteReserved r s)
  · exact .inputStored w hh ts a0 a1 a2 b0 b1 b2 hb

theorem hostPoll_effect (s : State) : AgentEffect s (hostPoll s) := by
  have hr : OnlyReplied s (readReg .status s) := onlyReplied_readReg .status s
  unfold hostPoll
  split
  · exact .answered _ hr
  · exact .of_onlyReplied hr

theorem hostAct_effect {op : HostOp} {s t : State} (h : hostAct op s = .next t) : AgentEffect s t := by
  cases op with
  | read a n => exact .of_onlyReplied (hostRead_next h)
  | write a n v => exact hostWrite_effect h
  | poll => cases h; exact hostPoll_effect s
  | reset => cases h; exact .wasReset

theorem engineTurn_effect {s t : State} (h : engineTurn s = .next t) : AgentEffect s t := by
  unfold engineTurn at h
  split at h
  · exact exec_effect h
  · cases h; exact .stays s

/-- An agent's step that answers has one of the effects, on the state with the rest of the host's queue (44_control.md
R240, R248). -/
theorem agentStep_effect {s t : State} (h : agentStep s = .next t) :
    ∃ q : List HostOp, AgentEffect { s with host := q } t := by
  unfold agentStep hostTurn at h
  split at h
  · split at h
    · cases h; exact ⟨s.host, .stays s⟩
    · exact ⟨_, hostAct_effect h⟩
  · exact ⟨s.host, engineTurn_effect h⟩

/-- A predicate that looks neither at the host's queue nor at the order of the turns (20_memory.md R70). -/
def IgnoresOrder (I : State → Prop) : Prop :=
  ∀ (s : State) (q : List HostOp) (a : Agent) (sch : List Agent) (h d : Nat), I s →
    I { s with host := q, turn := a, schedule := sch, hostTurns := h, draws := d }

/-- What every effect keeps, every step keeps: the queue before it and the turn after it do not matter. -/
theorem step_keeps {I : State → Prop} (ho : IgnoresOrder I) (he : ∀ s t, I s → AgentEffect s t → I t) {s t : State}
    (hs : I s) (h : step s = .next t) : I t := by
  obtain ⟨u, hu, rfl⟩ := step_next h
  obtain ⟨q, hq⟩ := agentStep_effect hu
  obtain ⟨a, sch, k, d, hn⟩ := nextTurn_frame u
  rw [hn]
  exact ho u u.host a sch k d (he _ u (ho s q s.turn s.schedule s.hostTurns s.draws hs) hq)

end Sys2Proof.Machine
end

section
/-! The stores stay canonical (10_state.md R41; 20_memory.md R62). -/

namespace Sys2Proof.Machine

theorem storesCanonical_reset : StoresCanonical State.reset := ⟨reset_mem_wf, rfl, rfl⟩

theorem storesCanonical_ignoresOrder : IgnoresOrder StoresCanonical := fun _ _ _ _ _ _ h => h

/-- The publication of a canonical scan leaves canonical stores. -/
theorem storesCanonical_finishConvert {sc : Scan} {s : State} (hm : Memory.wf s.mem = true)
    (hp : storeWf sc.pix = true) (hf : storeWf sc.fb = true) : StoresCanonical (finishConvert sc s) := by
  refine ⟨mem_wf_finishConvert sc s hm, ?_, ?_⟩ <;> rw [finishConvert_scan] <;> dsimp only
  · exact hp
  · exact storeWf_storeWriteAll _ _ _ hf

theorem storesCanonical_effect (s t : State) (hs : StoresCanonical s) (h : AgentEffect s t) : StoresCanonical t := by
  have hkeep : ∀ u : State, u.mem = s.mem → u.scan = s.scan → StoresCanonical u := by
    intro u hm hsc
    rwa [StoresCanonical, hm, hsc]
  obtain ⟨hmem, hpix, hfb⟩ := hs
  cases h with
  | answered q h => obtain ⟨r, d, f, _, rfl⟩ := h; exact hkeep _ rfl rfl
  | convertCompleted sc _ _ _ hsc =>
    obtain ⟨hp, hf⟩ := convertScan_wf hsc hpix hfb
    exact storesCanonical_finishConvert hmem hp hf
  | sourceStored a n v => exact ⟨mem_wf_write s.mem a n v hmem, hpix, hfb⟩
  | wasReset => exact storesCanonical_reset
  | _ => exact hkeep _ (by simp) (by simp)

/-- Settles O56: only a CONVERT's publication, a host write to SRC and a reset touch a store, and each leaves it
canonical. -/
theorem stepKeepsStoresCanonical : Obligations.StepKeepsStoresCanonical :=
  fun _ _ hs => step_keeps storesCanonical_ignoresOrder storesCanonical_effect hs

end Sys2Proof.Machine
end

section
/-! The stores list only cells that exist (10_state.md R33 to R35; 20_memory.md R62). -/

namespace Sys2Proof.Machine

/-- Every listed cell of a store has a number with the property. -/
def ListsOnly {α : Type} (p : Nat → Prop) (s : Store α) : Prop := ∀ k, (storeRead s k).isSome → p k

theorem listsOnly_nil {α : Type} (p : Nat → Prop) : ListsOnly p ([] : Store α) := fun k h => by simp at h

theorem listsOnly_storeWrite {α : Type} {p : Nat → Prop} {s : Store α} (h : ListsOnly p s) {a : Nat} (ha : p a) (v : α) :
    ListsOnly p (storeWrite s a v) := by
  intro k hk
  rw [storeRead_storeWrite] at hk
  split at hk
  · next hak => exact hak ▸ ha
  · exact h k hk

theorem listsOnly_storeWriteAll {α : Type} {p : Nat → Prop} {s : Store α} (h : ListsOnly p s) {a : Nat} {vs : List α}
    (ha : ∀ k, a ≤ k → k < a + vs.length → p k) : ListsOnly p (storeWriteAll s a vs) := by
  intro k hk
  rw [storeRead_storeWriteAll] at hk
  split at hk
  · next hr => exact ha k hr.1 hr.2
  · exact h k hk

theorem ListsOnly.tail {α : Type} {p : Nat → Prop} {e : Nat × α} {s : Store α} (h : ListsOnly p (e :: s)) :
    ListsOnly p s := by
  intro k hk
  refine h k ?_
  simp only [storeRead]
  split
  · rfl
  · exact hk

theorem ListsOnly.head {α : Type} {p : Nat → Prop} {a : Nat} {v : α} {s : Store α} (h : ListsOnly p ((a, v) :: s)) :
    p a := h a (by simp [storeRead])

theorem listsOnly_storeCopy {α : Type} {p q : Nat → Prop} {base : Nat} (hpq : ∀ k, q k → p (base + k))
    {s into : Store α} (hs : ListsOnly q s) (hi : ListsOnly p into) : ListsOnly p (storeCopy base s into) := by
  induction s generalizing into with
  | nil => exact hi
  | cons e rest ih => exact ih hs.tail (listsOnly_storeWrite hi (hpq _ hs.head) _)

/-- A channel of PIX (10_state.md R35). -/
def isChannel (k : Nat) : Prop := k < 3 * Config.numPixels

/-- A byte of a frame (42_ditherer.md R190). -/
def isFrameByte (k : Nat) : Prop := k < Config.FRAME_LEN

/-- A byte of a window (20_memory.md R62). -/
def inWindows (a : Nat) : Prop := inSrcWindow a ∨ inFrameWindow a

theorem storesInRange_iff (s : State) :
    StoresInRange s ↔ ListsOnly inWindows s.mem ∧ ListsOnly isChannel s.scan.pix ∧ ListsOnly isFrameByte s.scan.fb :=
  Iff.rfl

theorem listsOnly_writePixel {pix : Store F64} (h : ListsOnly isChannel pix) {p : Nat} (hp : p < Config.numPixels)
    (c : LinearColor) : ListsOnly isChannel (writePixel pix p c) := by
  have hc : ∀ d, d < 3 → isChannel (3 * p + d) := fun d hd => by unfold isChannel; omega
  exact listsOnly_storeWrite (listsOnly_storeWrite (listsOnly_storeWrite h (hc 0 (by decide)) _) (hc 1 (by decide)) _)
    (hc 2 (by decide)) _

theorem listsOnly_loadPixels {E : Elem} {src : Nat → Option Byte} {n p : Nat} {pix pix' : Store F64}
    (hn : p + n ≤ Config.numPixels) (h : loadPixels E src n p pix = some pix') (hl : ListsOnly isChannel pix) :
    ListsOnly isChannel pix' := by
  induction n generalizing p pix with
  | zero => cases h; exact hl
  | succ n ih =>
    simp only [loadPixels] at h
    split at h
    · exact ih (by omega) h (listsOnly_writePixel hl (by omega) _)
    · cases h

theorem listsOnly_diffuseTaps {x y : Nat} {err : LinearColor} {taps : List KernelTap} {pix pix' : Store F64}
    (h : diffuseTaps x y err taps pix = some pix') (hl : ListsOnly isChannel pix) : ListsOnly isChannel pix' := by
  induction taps generalizing pix with
  | nil => cases h; exact hl
  | cons t rest ih =>
    simp only [diffuseTaps] at h
    split at h
    · cases h
    · next pix1 h1 =>
      rcases diffuseTap_cases h1 with ⟨_, rfl⟩ | ⟨p, q, hp, _, rfl⟩
      · exact ih h hl
      · exact ih h (listsOnly_writePixel hl (tapTarget_lt hp) _)

/-- The position of a pair lies inside the frame, in both orientations (43_packer.md R213). -/
theorem bytePos_lt {rot : Bool} {x y : Nat} (hx : x < Config.W) (hy : y < Config.H) :
    bytePos rot x y < Config.FRAME_LEN := by
  simp only [bytePos, orient, Config.W, Config.H, Config.HDR_LEN, Config.FRAME_LEN] at *
  cases rot <;> simp only [Bool.false_eq_true, if_false, if_true] <;> omega

/-- The indices are packed inside the frame, the cursor standing inside the image (10_state.md R38). -/
theorem listsOnly_packIndex {rot : Bool} {i : Fin 7} {sc sc' : Scan} (h : packIndex rot i sc = some sc')
    (hl : ListsOnly isFrameByte sc.fb) : ListsOnly isFrameByte sc'.fb := by
  rcases packIndex_cases h with ⟨_, rfl⟩ | ⟨_, _, rfl⟩
  · exact hl
  · exact listsOnly_storeWrite hl (bytePos_lt (Nat.lt_of_le_of_lt (Nat.sub_le _ _) sc.cursor.x.isLt) sc.cursor.y.isLt) _

theorem packIndex_pix {rot : Bool} {i : Fin 7} {sc sc' : Scan} (h : packIndex rot i sc = some sc') :
    sc'.pix = sc.pix := by
  rcases packIndex_cases h with ⟨_, rfl⟩ | ⟨_, _, rfl⟩ <;> rfl

theorem listsOnly_scanPixels {P : Params} {pal : Palette} {rot : Bool} {n : Nat} {sc sc' : Scan}
    (h : scanPixels P pal rot n sc = some sc') (hp : ListsOnly isChannel sc.pix) (hf : ListsOnly isFrameByte sc.fb) :
    ListsOnly isChannel sc'.pix ∧ ListsOnly isFrameByte sc'.fb := by
  induction n generalizing sc with
  | zero => cases h; exact ⟨hp, hf⟩
  | succ n ih =>
    simp only [scanPixels] at h
    split at h
    · cases h
    · next sc1 h1 =>
      obtain ⟨p, pix, _, hd, hpk⟩ := scanPixel_cases h1
      have hpix : ListsOnly isChannel sc1.pix := packIndex_pix hpk ▸ listsOnly_diffuseTaps hd hp
      have hfb : ListsOnly isFrameByte sc1.fb := listsOnly_packIndex hpk hf
      exact ih h hpix hfb

theorem listsOnly_convertScan {P : Params} {pal : Palette} {rot : Bool} {src : Nat → Option Byte} {sc sc' : Scan}
    (h : convertScan P pal rot src sc = some sc') (hp : ListsOnly isChannel sc.pix) (hf : ListsOnly isFrameByte sc.fb) :
    ListsOnly isChannel sc'.pix ∧ ListsOnly isFrameByte sc'.fb := by
  simp only [convertScan] at h
  split at h
  · cases h
  · next pix hl => exact listsOnly_scanPixels h (listsOnly_loadPixels (Nat.le_of_eq (Nat.zero_add _)) hl hp) hf

@[simp] theorem length_bytesOf (v : Word) (n : Nat) : (bytesOf v n).length = n := by simp [bytesOf]

@[simp] theorem length_headerBytes (ts : Word) : (headerBytes ts).length = Config.HDR_LEN := by
  simp [headerBytes, Config.TS_LEN, Config.HDR_LEN]

/-- The publication of a scan inside the frame stays inside the FRAME window (10_state.md R34). -/
theorem storesInRange_finishConvert {sc : Scan} {s : State} (hm : ListsOnly inWindows s.mem)
    (hp : ListsOnly isChannel sc.pix) (hf : ListsOnly isFrameByte sc.fb) : StoresInRange (finishConvert sc s) := by
  have hfb : ListsOnly isFrameByte (storeWriteAll sc.fb 0 (headerBytes s.timestamp)) := by
    refine listsOnly_storeWriteAll hf fun k _ hk => ?_
    simp only [length_headerBytes, Config.HDR_LEN] at hk
    simp only [isFrameByte, Config.FRAME_LEN]
    omega
  have hwin : ∀ k, isFrameByte k → inWindows (Config.FRAME_BASE + k) := fun k hk =>
    .inr ⟨Nat.le_add_right _ _, Nat.add_lt_add_left hk _⟩
  rw [storesInRange_iff, finishConvert_mem, finishConvert_scan]
  dsimp only
  exact ⟨listsOnly_storeCopy hwin hfb hm, hp, hfb⟩

/-- A host write that SRC takes stores inside SRC (20_memory.md R62). -/
theorem listsOnly_sourceWrite {m : List Host.Cell} (h : ListsOnly inWindows m) {a n : Nat} (v : Word)
    (hw : inWindow Config.SRC_BASE Config.SRC_LEN a n = true) :
    ListsOnly inWindows (storeWriteAll m a (bytesOf v n)) := by
  simp only [inWindow, Bool.and_eq_true, decide_eq_true_eq] at hw
  obtain ⟨⟨_, hlo⟩, hhi⟩ := hw
  refine listsOnly_storeWriteAll h fun k hk hk' => .inl ⟨Nat.le_trans hlo hk, ?_⟩
  rw [length_bytesOf] at hk'
  exact Nat.lt_of_lt_of_le hk' hhi

theorem storesInRange_reset : StoresInRange State.reset := ⟨listsOnly_nil _, listsOnly_nil _, listsOnly_nil _⟩

theorem storesInRange_ignoresOrder : IgnoresOrder StoresInRange := fun _ _ _ _ _ _ h => h

theorem storesInRange_effect (s t : State) (hs : StoresInRange s) (h : AgentEffect s t) : StoresInRange t := by
  have hkeep : ∀ u : State, u.mem = s.mem → u.scan = s.scan → StoresInRange u := by
    intro u hm hsc
    rwa [StoresInRange, hm, hsc]
  obtain ⟨hmem, hpix, hfb⟩ := hs
  cases h with
  | answered q h => obtain ⟨r, d, f, _, rfl⟩ := h; exact hkeep _ rfl rfl
  | convertCompleted sc _ _ _ hsc =>
    obtain ⟨hp, hf⟩ := listsOnly_convertScan hsc hpix hfb
    exact storesInRange_finishConvert hmem hp hf
  | sourceStored a n v _ hw => exact ⟨listsOnly_sourceWrite hmem v hw, hpix, hfb⟩
  | wasReset => exact storesInRange_reset
  | _ => exact hkeep _ (by simp) (by simp)

/-- Settles O57: the load and the scan of a CONVERT keep to the image and the frame, its publication to the FRAME window,
and a host write to SRC to the SRC window. -/
theorem stepKeepsStoresInRange : Obligations.StepKeepsStoresInRange :=
  fun _ _ hs => step_keeps storesInRange_ignoresOrder storesInRange_effect hs

end Sys2Proof.Machine
end

section
/-! Phase, active command and STATUS stay in agreement (10_state.md R23, R36; 44_control.md R241, R248). -/

namespace Sys2Proof.Machine

theorem commandRegs_congr {s t : State} (h : operandRegsAB t = operandRegsAB s) (i : Instr) :
    commandRegs i t = commandRegs i s := by
  simp only [operandRegsAB, List.cons.injEq, and_true] at h
  obtain ⟨h1, h2, h3, h4, h5, h6⟩ := h
  cases i <;> simp only [commandRegs, operandRegsA, operandRegsAB, h1, h2, h3, h4, h5, h6]

/-- With no command running there is nothing to agree on but the phase. -/
theorem engineConsistent_of_idle {s : State} (hp : s.phase = .idle) (hb : s.status.busy = false) : EngineConsistent s := by
  simp [EngineConsistent, hp, hb]

theorem EngineConsistent.idle {s : State} (h : EngineConsistent s) (hb : s.status.busy = false) : s.phase = .idle := by
  cases hp : s.phase with
  | idle => rfl
  | run => rw [h.1.1 hp] at hb; cases hb

/-- A change outside the engine's fields and the operand registers keeps the agreement, and so does a waiting step. -/
theorem EngineConsistent.congr {s t : State} (h : EngineConsistent s) (hp : t.phase = s.phase)
    (hb : t.status.busy = s.status.busy) (hd : t.status.done = s.status.done) (he : t.status.err = s.status.err)
    (ha : t.active = s.active) (hl : 0 < s.latLeft → 0 < t.latLeft) (hr : operandRegsAB t = operandRegsAB s) :
    EngineConsistent t := by
  obtain ⟨hphase, hrun⟩ := h
  refine ⟨by rw [hp, hb, hphase], fun hbt => ?_⟩
  obtain ⟨h1, h2, h3, i, hi, hn, hw, hf⟩ := hrun (hb ▸ hbt)
  exact ⟨hd ▸ h1, he ▸ h2, hl h3, i, ha ▸ hi, hn, commandRegs_congr hr i ▸ hw, commandRegs_congr hr i ▸ hf⟩

/-- An acceptance starts a command in agreement: its registers were found written and finite, and LAT is at least 1. -/
theorem engineConsistent_startCommand {i : Instr} {s : State} (hi : i ≠ .nop) (hw : AllRegsWritten (commandRegs i s))
    (hf : AllRegsFinite (commandRegs i s)) : EngineConsistent (startCommand i s) := by
  have hregs : commandRegs i (startCommand i s) = commandRegs i s := commandRegs_congr rfl i
  exact ⟨⟨fun _ => rfl, fun _ => rfl⟩,
    fun _ => ⟨rfl, rfl, Nat.succ_pos _, i, rfl, hi, hregs ▸ hw, hregs ▸ hf⟩⟩

theorem engineConsistent_ignoresOrder : IgnoresOrder EngineConsistent :=
  fun _ _ _ _ _ _ h => h.congr rfl rfl rfl rfl rfl id rfl

theorem engineConsistent_effect (s t : State) (hs : EngineConsistent s) (h : AgentEffect s t) : EngineConsistent t := by
  cases h with
  | answered q h => obtain ⟨r, d, f, _, rfl⟩ := h; exact hs.congr rfl rfl rfl rfl rfl id rfl
  | overran => exact hs.congr rfl rfl rfl rfl rfl id rfl
  | operandUnwritten hb => exact engineConsistent_of_idle (by simp [hs.idle hb]) (by simp [hb])
  | errorRaised code hb => exact engineConsistent_of_idle (hs.idle hb) hb
  | started i _ hi hw hf => exact engineConsistent_startCommand hi hw hf
  | waited _ hl => exact hs.congr rfl rfl rfl rfl rfl (fun _ => Nat.sub_pos_of_lt hl) rfl
  | directCompleted => exact engineConsistent_of_idle (by simp) (by simp)
  | convertCompleted => exact engineConsistent_of_idle (by simp) (by simp)
  | sourceStored _ _ _ hb => exact engineConsistent_of_idle (hs.idle hb) hb
  | inputStored _ _ _ _ _ _ _ _ _ hb => exact engineConsistent_of_idle (hs.idle hb) hb
  | wasReset => exact engineConsistent_of_idle rfl rfl

/-- Settles O58: a command starts in agreement, waits with a step to go and completes into IDLE; every other effect comes
while none runs or leaves what the agreement is about. -/
theorem stepKeepsEngineConsistent : Obligations.StepKeepsEngineConsistent :=
  fun _ _ hs => step_keeps engineConsistent_ignoresOrder engineConsistent_effect hs

end Sys2Proof.Machine
end

section
/-! The parameters stay the device's (10_state.md R24, R29, R31). -/

namespace Sys2Proof.Machine

theorem parametersFixed_reset : ParametersFixed State.reset := ⟨rfl, rfl⟩

theorem parametersFixed_ignoresOrder : IgnoresOrder ParametersFixed := fun _ _ _ _ _ _ h => h

theorem parametersFixed_effect (s t : State) (hs : ParametersFixed s) (h : AgentEffect s t) : ParametersFixed t := by
  obtain ⟨hpal, hcfg⟩ := hs
  cases h with
  | answered q h => obtain ⟨r, d, f, _, rfl⟩ := h; exact ⟨hpal, hcfg⟩
  | wasReset => exact parametersFixed_reset
  | _ => exact ⟨by simp [hpal], by simp [hcfg]⟩

/-- Settles O59: no effect but a reset touches the palette or CONFIG, and a reset puts both at the device's values. -/
theorem stepKeepsParameters : Obligations.StepKeepsParameters :=
  fun _ _ hs => step_keeps parametersFixed_ignoresOrder parametersFixed_effect hs

end Sys2Proof.Machine
end

section
/-! A recorded fault stays recorded (10_state.md R41; 00_scope.md R14). -/

namespace Sys2Proof.Machine

/-- The faults recorded beyond the given ones are READ_UNWRITTEN and BAD_ACCESS at most, and none of those is missing. -/
def RecordExtends (fs : List Fault) (t : State) : Prop :=
  (∀ f, f ∈ fs → f ∈ t.faults) ∧ (∀ f, f ∈ t.faults → f ∈ fs ∨ f = .readUnwritten ∨ f = .badAccess)

theorem RecordExtends.congr {fs : List Fault} {s t : State} (h : RecordExtends fs s) (hf : t.faults = s.faults) :
    RecordExtends fs t := by rwa [RecordExtends, hf]

/-- One more record of READ_UNWRITTEN or of BAD_ACCESS extends the record. -/
theorem RecordExtends.record {fs : List Fault} {s t : State} {g : Fault} (h : RecordExtends fs s)
    (hg : g = .readUnwritten ∨ g = .badAccess) (ht : ∀ f, f ∈ t.faults → f = g ∨ f ∈ s.faults)
    (hk : ∀ f, f ∈ s.faults → f ∈ t.faults) : RecordExtends fs t := by
  refine ⟨fun f hf => hk f (h.1 f hf), fun f hf => ?_⟩
  rcases ht f hf with rfl | hs
  · exact .inr hg
  · exact h.2 f hs

theorem RecordExtends.onlyReplied {fs : List Fault} {s t : State} (h : RecordExtends fs s) (ho : OnlyReplied s t) :
    RecordExtends fs t := by
  obtain ⟨r, d, f, rfl | rfl | rfl, rfl⟩ := ho
  · exact h.congr rfl
  · exact h.record (.inl rfl) (fun _ => List.mem_cons.1) (fun _ => List.mem_cons_of_mem _)
  · exact h.record (.inr rfl) (fun _ => List.mem_cons.1) (fun _ => List.mem_cons_of_mem _)

theorem recordExtends_ignoresOrder (fs : List Fault) : IgnoresOrder (RecordExtends fs) := fun _ _ _ _ _ _ h => h

theorem recordExtends_effect (fs : List Fault) (s t : State) (hs : RecordExtends fs s) (h : AgentEffect s t) :
    RecordExtends fs t := by
  cases h with
  | answered q h => exact (hs.onlyReplied h).congr rfl
  | operandUnwritten =>
    exact hs.record (.inl rfl) (fun f => (mem_recordFault _ f _).1) (fun f hf => (mem_recordFault _ f _).2 (.inr hf))
  | directCompleted i =>
    have hn : OnlyReplied s (noteRead (commandRegs i s) s) := by
      rcases noteRead_cases (commandRegs i s) s with h | h <;> rw [h]
      · exact ⟨_, _, _, .inl rfl, rfl⟩
      · exact ⟨_, _, _, .inr (.inl rfl), rfl⟩
    exact (hs.onlyReplied hn).congr (completeDirect_faults _ _ _)
  | _ => exact hs.congr (by simp)

/-- Settles O60: the effects record READ_UNWRITTEN or BAD_ACCESS, or leave the record as it is, a reset too. -/
theorem stepNeverRemovesAFault : Obligations.StepNeverRemovesAFault :=
  fun s _ => step_keeps (recordExtends_ignoresOrder s.faults) (recordExtends_effect s.faults)
    ⟨fun _ h => h, fun _ h => .inl h⟩

end Sys2Proof.Machine
end

section
/-! The register map (10_state.md R21). -/

namespace Sys2Proof.Machine

/-- The palette register found at an offset stands there by its formula (10_state.md R21). -/
theorem regOffset_of_palAt {r : RegName} {a : Nat} (h : palAt a = some r) : a = regOffset r := by
  simp only [palAt] at h
  split at h
  · cases h; simp only [regOffset]; omega
  · cases h

/-- The register found at an offset stands there. -/
theorem regOffset_of_regAt {r : RegName} {a : Nat} (h : regAt a = some r) : a = regOffset r := by
  unfold regAt at h
  split at h
  · next r' hf =>
    have hr : (regOffset r' == a) = true := List.find?_some (p := fun r => regOffset r == a) hf
    cases h
    exact (eq_of_beq hr).symm
  · exact regOffset_of_palAt h

/-- Each register is found at its own offset: one of the fifteen below the palette, or a palette channel. -/
theorem regAt_regOffset (r : RegName) : regAt (regOffset r) = some r := by
  have hctl : ∀ r ∈ controlRegs, regAt (regOffset r) = some r := by decide
  have hpal : ∀ (i : Fin 7) (c : Fin 3), regAt (regOffset (.pal i c)) = some (.pal i c) := by decide
  cases r with
  | pal i c => exact hpal i c
  | _ => exact hctl _ (by decide)

/-- Settles O43: a register is found only at its own offset, and there it is found. -/
theorem registerMapIsOneToOne : Obligations.RegisterMapIsOneToOne :=
  fun r _ => ⟨regOffset_of_regAt, fun h => h ▸ regAt_regOffset r⟩

end Sys2Proof.Machine
end

section
/-! The idle engine and the cursor (10_state.md R36, R38). -/

namespace Sys2Proof.Machine

/-- Settles O5: `engineTurn` runs a command in RUN alone. -/
theorem idleEngineTakesNoStep : Obligations.IdleEngineTakesNoStep := by
  intro s ht hp
  have he : engineTurn s = .next s := by simp only [engineTurn, hp]
  simp only [step, agentStep, ht, he, passTurn]

/-- Settles O38: the columns and the rows left say which branch of `cursorNext` is taken. -/
theorem cursorAdvancesInRowMajorOrder : Obligations.CursorAdvancesInRowMajorOrder := by
  intro c
  refine ⟨fun hx => ?_, fun hx hy => ?_, fun hx hy => ?_, fun h => pixelNumber_cursorNext ?_⟩
  · rw [cursorNext, dif_pos (by omega : c.x.val + 1 < 600)]
    exact ⟨rfl, rfl⟩
  · rw [cursorNext, dif_neg (by omega : ¬c.x.val + 1 < 600), dif_pos (by omega : c.y.val + 1 < 448)]
    exact ⟨rfl, rfl⟩
  · rw [cursorNext, dif_neg (by omega : ¬c.x.val + 1 < 600), dif_neg (by omega : ¬c.y.val + 1 < 448)]
  · have hx : c.x.val < 600 := c.x.isLt
    have hy : c.y.val < 448 := c.y.isLt
    simp only [pixelNumber, Config.W, Config.numPixels]
    omega

end Sys2Proof.Machine
end

section
/-! The STATUS word (10_state.md R23; 60_exceptions.md R260). -/

namespace Sys2Proof.Machine

theorem statusWord_flags (st : Status) :
    (statusWord st).getLsbD 0 = st.busy ∧ (statusWord st).getLsbD 1 = st.done ∧ (statusWord st).getLsbD 2 = st.ovr := by
  simp only [statusWord, BitVec.getLsbD_append]
  simp

/-- Bits [15:8] of STATUS are the code of its error (60_exceptions.md R260). The width is written as the sum over the
fields, the form in which the lemmas on `++` apply. -/
theorem statusWord_err (st : Status) : (statusWord st).extractLsb' 8 8 = errBits st.err := by
  show BitVec.extractLsb' (n := 48 + 8 + 5 + 1 + 1 + 1) 8 8 (statusWord st) = errBits st.err
  simp only [statusWord, BitVec.extractLsb'_append_eq_of_le, BitVec.extractLsb'_append_eq_right, Nat.reduceLeDiff,
    Nat.reduceSub]

theorem statusWord_reserved_low (st : Status) : (statusWord st).extractLsb' 3 5 = 0 := by
  show BitVec.extractLsb' (n := 48 + 8 + 5 + 1 + 1 + 1) 3 5 (statusWord st) = 0
  simp only [statusWord, BitVec.extractLsb'_append_eq_of_le, BitVec.extractLsb'_append_eq_right, Nat.reduceLeDiff,
    Nat.reduceSub]

theorem statusWord_reserved_high (st : Status) : (statusWord st).extractLsb' 16 48 = 0 := by
  show BitVec.extractLsb' (n := 48 + 8 + 5 + 1 + 1 + 1) 16 48 (statusWord st) = 0
  simp only [statusWord, BitVec.extractLsb'_append_eq_of_le, BitVec.extractLsb'_eq_self, Nat.reduceLeDiff,
    Nat.reduceSub]

/-- Settles O44, field by field; each code is `errBits` of its error. -/
theorem statusWordLayout : Obligations.StatusWordLayout := by
  intro st
  obtain ⟨hbusy, hdone, hovr⟩ := statusWord_flags st
  refine ⟨hbusy, hdone, hovr, statusWord_reserved_low st, statusWord_reserved_high st, ?_⟩
  rw [statusWord_err]
  exact ⟨fun h => h ▸ rfl, fun h => h ▸ rfl, fun h => h ▸ rfl, fun h => h ▸ rfl⟩

end Sys2Proof.Machine
end

section
/-! The state after reset (10_state.md R42). -/

namespace Sys2Proof.Machine

theorem operandRegsAB_reset : operandRegsAB State.reset = List.replicate 6 unwrittenReg := rfl

/-- Settles O53: every row of the table is a field of `State.reset`, and an empty store lists no cell. -/
theorem resetTable : Obligations.ResetTable := by
  refine ⟨by decide, by decide, rfl, rfl, rfl, fun r hr => ?_, rfl, rfl, rfl, rfl, storeRead_nil, storeRead_nil, rfl, rfl,
    rfl, rfl⟩
  rw [operandRegsAB_reset] at hr
  rw [List.eq_of_mem_replicate hr]
  rfl

/-- Settles O55: the stores are empty, no command runs and the parameters are the device's. -/
theorem resetMeetsTheInvariants : Obligations.ResetMeetsTheInvariants :=
  ⟨storesCanonical_reset, storesInRange_reset, engineConsistent_of_idle rfl rfl, parametersFixed_reset⟩

end Sys2Proof.Machine
end

section
/-! The completion step of a direct command (20_memory.md R71; 44_control.md R248). -/

namespace Sys2Proof.Machine

/-- At its last engine step a direct command is `completeDirect`; the guards of its other branches contradict
`Completing`. -/
theorem directCommand_of_completing {i : Instr} {s : State} (hc : Completing i s) (regs : State → List DataReg)
    (results : State → Results) :
    directCommand i regs results s = .next (completeDirect (regs s) (results s) s) := by
  obtain ⟨ht, hp, ha, hl⟩ := hc
  rcases directCommand_cases i regs results s with
    ⟨ht', _⟩ | ⟨_, hidle, _⟩ | ⟨_, _, _, hwait, _⟩ | ⟨_, _, _, _, hd⟩
  · rw [ht] at ht'; cases ht'
  · exact absurd ⟨hp, ha⟩ hidle
  · omega
  · exact hd

/-- The four direct commands share one completion, on the registers each of them reads (20_memory.md R71). -/
theorem exec_of_direct_completing {i : Instr} {s : State} (hi : IsDirect i) (hc : Completing i s) :
    ∃ r : Results, exec i s = .next (completeDirect (commandRegs i s) r s) := by
  rcases hi with rfl | rfl | rfl | rfl
  · exact ⟨_, directCommand_of_completing hc operandRegsA gammaResults⟩
  · exact ⟨_, directCommand_of_completing hc operandRegsA labResults⟩
  · exact ⟨_, directCommand_of_completing hc operandRegsAB de2000Results⟩
  · exact ⟨_, directCommand_of_completing hc operandRegsA nearestResults⟩

/-- Settles O20: whatever the results are, `completeDirect` writes them, and it records what reading the command's
registers records. -/
theorem directCompletionAlwaysAnswers : Obligations.DirectCompletionAlwaysAnswers := by
  intro i s hi hc
  obtain ⟨r, hr⟩ := exec_of_direct_completing hi hc
  exact ⟨completeDirect (commandRegs i s) r s, hr, completeDirect_phase _ _ _, completeDirect_status _ _ _, rfl, rfl, rfl,
    fun f => mem_noteRead (commandRegs i s) f s⟩

end Sys2Proof.Machine
end

section
/-! The bytes of a word (20_memory.md R63). -/

namespace Sys2Proof

/-- Bit `j` of a word put together from bytes is bit `j % 8` of byte `j / 8`. -/
theorem getLsbD_wordOfBytes (bs : List Byte) {j : Nat} (hj : j < 64) :
    (wordOfBytes bs).getLsbD j = (bs.getD (j / 8) 0).getLsbD (j % 8) := by
  induction bs generalizing j with
  | nil => simp [wordOfBytes]
  | cons b rest ih =>
    rw [wordOfBytes, BitVec.getLsbD_or, BitVec.getLsbD_shiftLeft, BitVec.getLsbD_setWidth]
    by_cases h : j < 8
    · simp [h, hj, Nat.div_eq_of_lt, Nat.mod_eq_of_lt]
    · obtain ⟨k, rfl⟩ : ∃ k, j = k + 8 := ⟨j - 8, by omega⟩
      simp [hj, ih (by omega : k < 64)]

/-- The eight bytes of a word give the word back. -/
theorem wordOfBytes_bytesOf (v : Word) : wordOfBytes (bytesOf v 8) = v := by
  apply BitVec.eq_of_getLsbD_eq
  intro j hj
  have hb : (bytesOf v 8).getD (j / 8) 0 = byteOf v (j / 8) := by
    simp [bytesOf, List.getD, List.getElem?_range (by omega : j / 8 < 8)]
  rw [getLsbD_wordOfBytes _ hj, hb, byteOf, BitVec.getLsbD_extractLsb']
  simp [Nat.mod_lt j, Nat.div_add_mod]

/-- The byte decoder reads eight bytes as one word and leaves the rest (30_encoding.md R90). -/
theorem decodeBytes_eight (b0 b1 b2 b3 b4 b5 b6 b7 : Byte) (rest : List Byte) :
    decodeBytes (b0 :: b1 :: b2 :: b3 :: b4 :: b5 :: b6 :: b7 :: rest) =
      (decode (wordOfBytes [b0, b1, b2, b3, b4, b5, b6, b7])).map (·, rest) := by
  rw [decodeBytes]
  cases decode (wordOfBytes [b0, b1, b2, b3, b4, b5, b6, b7]) <;> rfl

/-- A word laid out as bytes decodes as the word does. -/
theorem decodeBytes_bytesOf (w : Word) (rest : List Byte) :
    decodeBytes (bytesOf w 8 ++ rest) = (decode w).map (·, rest) := by
  have h : decodeBytes (bytesOf w 8 ++ rest) = (decode (wordOfBytes (bytesOf w 8))).map (·, rest) :=
    decodeBytes_eight _ _ _ _ _ _ _ _ rest
  rw [h, wordOfBytes_bytesOf]

end Sys2Proof
end

section
/-! The opcode map and the command word (30_encoding.md R90 to R96). -/

namespace Sys2Proof

/-- A command found in a list of rows stands there beside its opcode. -/
theorem mem_of_lookupOpcode {op : BitVec 8} {i : Instr} {rows : List OpcodeRow} (h : lookupOpcode op rows = some i) :
    ⟨op, i⟩ ∈ rows := by
  induction rows with
  | nil => cases h
  | cons row rest ih =>
    rw [lookupOpcode] at h
    split at h
    · next hop => cases h; cases hop; exact List.mem_cons_self
    · exact List.mem_cons_of_mem _ (ih h)

/-- The opcode map is `opcodeOf` read backwards (30_encoding.md R92). -/
theorem lookupOpcode_opcodeMap {op : BitVec 8} {i : Instr} :
    lookupOpcode op opcodeMap = some i ↔ op = opcodeOf i := by
  constructor
  · have hrows : ∀ row ∈ opcodeMap, row.op = opcodeOf row.instr := by decide
    exact fun h => hrows _ (mem_of_lookupOpcode h)
  · rintro rfl
    cases i <;> rfl

/-- The opcodes of the six commands are 0x00 to 0x05 (30_encoding.md R92). -/
theorem exists_eq_opcodeOf_iff (op : BitVec 8) : (∃ i, op = opcodeOf i) ↔ op.toNat ≤ 5 := by
  constructor
  · rintro ⟨i, rfl⟩
    cases i <;> decide
  · intro h
    have hop : op = BitVec.ofNat 8 op.toNat := by simp
    generalize op.toNat = n at h hop
    subst hop
    match n with
    | 0 => exact ⟨.nop, rfl⟩
    | 1 => exact ⟨.convert, rfl⟩
    | 2 => exact ⟨.gamma, rfl⟩
    | 3 => exact ⟨.lab, rfl⟩
    | 4 => exact ⟨.de2000, rfl⟩
    | 5 => exact ⟨.nearest, rfl⟩

/-- A word is its two fields (30_encoding.md R90). -/
theorem rsvField_append_opField (w : Word) : rsvField w ++ opField w = w :=
  (BitVec.extractLsb'_append_extractLsb'_eq_extractLsb' rfl).trans BitVec.extractLsb'_eq_self

@[simp] theorem rsvField_append (r : BitVec 56) (op : BitVec 8) : rsvField (r ++ op) = r :=
  BitVec.extractLsb'_append_eq_left

@[simp] theorem opField_append (r : BitVec 56) (op : BitVec 8) : opField (r ++ op) = op :=
  BitVec.extractLsb'_append_eq_right

/-- The word of a command has its opcode below a reserved field of 0 (30_encoding.md R90, R92). -/
theorem eq_encode_iff {w : Word} {i : Instr} : w = encode i ↔ rsvField w = 0 ∧ opField w = opcodeOf i := by
  constructor
  · rintro rfl
    exact ⟨rsvField_append _ _, opField_append _ _⟩
  · rintro ⟨hr, ho⟩
    rw [← rsvField_append_opField w, hr, ho, encode]

/-- A word decodes to a command exactly when its fields are those of the command's row (30_encoding.md R92). -/
theorem decode_eq_ok_iff {w : Word} {i : Instr} : decode w = .ok i ↔ rsvField w = 0 ∧ opField w = opcodeOf i := by
  rw [← lookupOpcode_opcodeMap, decode]
  by_cases hr : rsvField w = 0
  · rw [if_neg (not_not_intro hr)]
    cases lookupOpcode (opField w) opcodeMap <;> simp [hr]
  · rw [if_pos hr]
    exact iff_of_false (by simp) fun ⟨h, _⟩ => hr h

theorem decode_eq_ok_iff_eq_encode {w : Word} {i : Instr} : decode w = .ok i ↔ w = encode i :=
  decode_eq_ok_iff.trans eq_encode_iff.symm

@[simp] theorem decode_encode (i : Instr) : decode (encode i) = .ok i := decode_eq_ok_iff_eq_encode.2 rfl

/-- The words that decode to a command are those that pass both checks (30_encoding.md R94). -/
theorem exists_decode_eq_ok_iff (w : Word) :
    (∃ i, decode w = .ok i) ↔ rsvField w = 0 ∧ (opField w).toNat ≤ 5 := by
  simp only [decode_eq_ok_iff, exists_and_left, exists_eq_opcodeOf_iff]

theorem wellFormedWord_iff (w : Word) : wellFormedWord w = true ↔ rsvField w = 0 ∧ (opField w).toNat ≤ 5 := by
  simp [wellFormedWord, reservedIsZero, opcodeIsKnown, rsvField, opField]

theorem exists_decode_eq_error_iff_not (w : Word) : (∃ e, decode w = .error e) ↔ ¬∃ i, decode w = .ok i := by
  cases decode w <;> simp

/-- The illegal words (30_encoding.md R94). -/
theorem exists_decode_eq_error_iff (w : Word) :
    (∃ e, decode w = .error e) ↔ 0x06 ≤ (opField w).toNat ∨ rsvField w ≠ 0 := by
  rw [exists_decode_eq_error_iff_not, exists_decode_eq_ok_iff, not_and_or, Nat.not_le, or_comm]
  rfl

/-- Settles O2: the byte decoder reads the encoded word back from its bytes, and decoding compares both fields with the
command's. -/
theorem decodeAndEncodeAgree : Obligations.DecodeAndEncodeAgree := by
  intro i _
  refine ⟨?_, fun w => decode_eq_ok_iff_eq_encode⟩
  calc decodeBytes (encodeBytes i)
      = decodeBytes (bytesOf (encode i) 8 ++ []) := by rw [encodeBytes, List.append_nil]
    _ = (decode (encode i)).map (·, []) := decodeBytes_bytesOf _ _
    _ = .ok (i, []) := by rw [decode_encode]; rfl

/-- Settles O3: `decode` answers with one value, and which kind it is follows from the two fields. -/
theorem decodingIsTotalAndUnambiguous : Obligations.DecodingIsTotalAndUnambiguous := by
  intro w
  refine ⟨?_, exists_decode_eq_error_iff w, (exists_decode_eq_ok_iff w).trans (wellFormedWord_iff w).symm⟩
  cases hd : decode w with
  | ok i => exact .inl ⟨i, rfl, fun j hj => (Except.ok.inj hj).symm⟩
  | error e => exact .inr ⟨e, rfl⟩

/-- Settles O1: the six words are the encodings of the six commands; the three others fail a check. -/
theorem wordsDecodeAsTheOpcodeMapSays : Obligations.WordsDecodeAsTheOpcodeMapSays :=
  ⟨decode_encode .nop, decode_encode .convert, decode_encode .gamma, decode_encode .lab, decode_encode .de2000,
    decode_encode .nearest, by decide, by decide, by decide⟩

end Sys2Proof
end

section
/-! An illegal word at CMD (30_encoding.md R94) and `poll` (R99). -/

namespace Sys2Proof.Machine

/-- An illegal word at CMD is rejected (30_encoding.md R94). -/
theorem hostWrite_cmd_of_illegal {w : Word} (h : 0x06 ≤ (opField w).toNat ∨ rsvField w ≠ 0) (s : State) :
    hostWrite 0x000 8 w s = .next (rejectIllegal s) := by
  obtain ⟨e, he⟩ := (exists_decode_eq_error_iff w).2 h
  rw [hostWrite_cmd, submit, he]

theorem rejectIllegal_of_busy {s : State} (hb : s.status.busy = true) : rejectIllegal s = overrun s := if_pos hb

theorem rejectIllegal_of_not_busy {s : State} (hb : s.status.busy = false) :
    rejectIllegal s = raiseError .illegalCmd s := if_neg (by simp [hb])

/-- An answer while no command runs fixes every field of STATUS (44_control.md R241). -/
theorem statusAnswered_of_not_busy {st : Status} (hb : st.busy = false) (code : ErrCode) :
    statusAnswered code st = { busy := false, done := true, ovr := false, err := code } := by
  rw [statusAnswered, statusCleared, hb]

/-- Settles O12: the word is rejected, by the overrun or by `raise Error(ILLEGAL_CMD)`. -/
theorem illegalWordChangesOnlyStatus : Obligations.IllegalWordChangesOnlyStatus := by
  intro s w h
  rw [hostWrite_cmd_of_illegal h]
  refine ⟨fun hb => ?_, fun hb => ?_⟩
  · rw [rejectIllegal_of_not_busy hb, raiseError, statusAnswered_of_not_busy hb]
  · rw [rejectIllegal_of_busy hb, overrun, statusOverrun]

/-- A host entry at the head of the queue is what a step on the host's turn runs (44_control.md R240). -/
theorem step_of_host {s : State} {op : HostOp} {rest : List HostOp} (ht : s.turn = .host) (hq : s.host = op :: rest) :
    step s = passTurn (hostAct op { s with host := rest }) := by
  simp only [step, agentStep, ht, hostTurn, hq]

theorem hostPoll_of_busy {s : State} (hb : s.status.busy = true) :
    hostPoll s = { s with host := .poll :: s.host, replies := statusWord s.status :: s.replies } := if_pos hb

theorem hostPoll_of_not_busy {s : State} (hb : s.status.busy = false) :
    hostPoll s = { s with replies := statusWord s.status :: s.replies } := if_neg (by simp [hb])

/-- Settles O52: a poll that finds BUSY = 1 puts itself back where it was taken off. -/
theorem pollRepeatsWhileBusy : Obligations.PollRepeatsWhileBusy := by
  intro s rest ht hq
  rw [step_of_host ht hq, hostAct]
  refine ⟨fun hb => ?_, fun hb => ?_⟩
  · rw [hostPoll_of_busy (s := { s with host := rest }) hb, ← hq, passTurn]
  · rw [hostPoll_of_not_busy (s := { s with host := rest }) hb, passTurn]

end Sys2Proof.Machine
end

section
/-! What a direct command leaves unchanged, and what GAMMA and LAB write at their completion (40_colormath.md R119, R120;
41_distance.md R153, R154; 44_control.md R241). -/

namespace Sys2Proof.Machine

/-- Everything a direct command reads or has nothing to do with: CONFIG, the inputs, the palette, memory, the work area and
the agents' queues. -/
def KeepsInputs (s t : State) : Prop :=
  t.config = s.config ∧ t.srcW = s.srcW ∧ t.srcH = s.srcH ∧ t.timestamp = s.timestamp ∧ t.opaR = s.opaR ∧
  t.opaG = s.opaG ∧ t.opaB = s.opaB ∧ t.opbR = s.opbR ∧ t.opbG = s.opbG ∧ t.opbB = s.opbB ∧ t.palette = s.palette ∧
  t.scan = s.scan ∧ t.turn = s.turn ∧ t.schedule = s.schedule ∧ t.host = s.host ∧ t.replies = s.replies ∧
  ∀ a, storeRead t.mem a = storeRead s.mem a

/-- The results are as they were (10_state.md R28). -/
def KeepsResults (s t : State) : Prop := t.res0 = s.res0 ∧ t.res1 = s.res1 ∧ t.res2 = s.res2

/-- An acceptance changes no input and no result, whichever way it goes (44_control.md R241). -/
theorem acceptCommand_keeps (i : Instr) (regs : List DataReg) (error : Option ErrCode) (s : State) :
    KeepsInputs s (acceptCommand i regs error s) ∧ KeepsResults s (acceptCommand i regs error s) := by
  rcases acceptCommand_cases i regs error s with
    ⟨_, h⟩ | ⟨_, _, h⟩ | ⟨_, _, code, _, h⟩ | ⟨_, _, _, h⟩ <;> rw [h] <;> simp [KeepsInputs, KeepsResults]

theorem waitStep_keeps (s : State) : KeepsInputs s (waitStep s) ∧ KeepsResults s (waitStep s) := by
  simp [KeepsInputs, KeepsResults]

theorem completeDirect_keepsInputs (regs : List DataReg) (r : Results) (s : State) :
    KeepsInputs s (completeDirect regs r s) := by
  simp [KeepsInputs]

/-- A direct command that answers keeps its inputs, and its results too unless it completes. -/
theorem directCommand_keeps {i : Instr} {regs : State → List DataReg} {results : State → Results} {s t : State}
    (h : directCommand i regs results s = .next t) :
    KeepsInputs s t ∧ (¬Completing i s → KeepsResults s t) := by
  rcases directCommand_cases i regs results s with
    ⟨_, hd⟩ | ⟨_, _, hd⟩ | ⟨_, _, _, _, hd⟩ | ⟨ht, hp, ha, hl, hd⟩ <;> rw [hd] at h <;> cases h
  · exact (acceptCommand_keeps i (regs s) _ s).imp_right fun hr _ => hr
  · simp [KeepsInputs, KeepsResults]
  · exact (waitStep_keeps s).imp_right fun hr _ => hr
  · exact ⟨completeDirect_keepsInputs _ _ s, fun hc => absurd ⟨ht, hp, ha, hl⟩ hc⟩

/-- The four direct commands share one form (44_control.md R241, R248). -/
theorem exec_of_direct {i : Instr} (hi : IsDirect i) (s : State) :
    ∃ results, exec i s = directCommand i (commandRegs i) results s := by
  rcases hi with rfl | rfl | rfl | rfl
  · exact ⟨gammaResults, rfl⟩
  · exact ⟨labResults, rfl⟩
  · exact ⟨de2000Results, rfl⟩
  · exact ⟨nearestResults, rfl⟩

/-- Settles O27, by the ways in which a direct command can answer. -/
theorem directCommandFrame : Obligations.DirectCommandFrame := by
  intro i s t hi h
  obtain ⟨results, hd⟩ := exec_of_direct hi s
  obtain ⟨⟨h1, h2, h3, h4, h5, h6, h7, h8, h9, h10, h11, h12, h13, h14, h15, h16, h17⟩, hr⟩ :=
    directCommand_keeps (hd.symm.trans h)
  exact ⟨h1, h2, h3, h4, h5, h6, h7, h8, h9, h10, h11, h12, h13, h14, h15, h16, h17, hr⟩

/-- With its registers written a completion records nothing: the three results and the completion are all it does
(20_memory.md R71). -/
theorem completeDirect_of_written {regs : List DataReg} (h : AllRegsWritten regs) (r : Results) (s : State) :
    completeDirect regs r s = { s with
      res0 := { value := r.r0, unwritten := false }
      res1 := { value := r.r1, unwritten := false }
      res2 := { value := r.r2, unwritten := false }
      status := { s.status with busy := false, done := true, err := .none }
      phase := .idle
      latLeft := 0 } := by
  rw [completeDirect, noteRead_of_written h]
  rfl

theorem directCommand_of_completing_written {i : Instr} {s : State} {regs : State → List DataReg} (hc : Completing i s)
    (hw : AllRegsWritten (regs s)) (results : State → Results) :
    directCommand i regs results s = .next { s with
      res0 := { value := (results s).r0, unwritten := false }
      res1 := { value := (results s).r1, unwritten := false }
      res2 := { value := (results s).r2, unwritten := false }
      status := { s.status with busy := false, done := true, err := .none }
      phase := .idle
      latLeft := 0 } := by
  rw [directCommand_of_completing hc, completeDirect_of_written hw]

/-- Settles O16: the results written are those of `gammaResults`. -/
theorem gammaCompletes : Obligations.GammaCompletes :=
  fun _ hc hw => directCommand_of_completing_written hc hw gammaResults

/-- Settles O17: the results written are those of `labResults`. -/
theorem labCompletes : Obligations.LabCompletes :=
  fun _ hc hw => directCommand_of_completing_written hc hw labResults

end Sys2Proof.Machine
end

section
/-! The order of binary64 values (00_scope.md R11) and `clamp` (40_colormath.md R111). -/

namespace Sys2Proof.Machine

theorem flt_iff {a b : F64} : flt a b = true ↔ fisNaN a = false ∧ fisNaN b = false ∧ fkey a < fkey b := by
  simp [flt, and_assoc]

theorem fle_iff {a b : F64} : fle a b = true ↔ fisNaN a = false ∧ fisNaN b = false ∧ fkey a ≤ fkey b := by
  simp [fle, and_assoc]

/-- Of numbers, NaN left out, not to lie below is to lie at or above. -/
theorem flt_eq_false_iff {a b : F64} (ha : fisNaN a = false) (hb : fisNaN b = false) :
    flt a b = false ↔ fle b a = true := by
  rw [← Bool.not_eq_true, flt_iff, fle_iff]
  simp [ha, hb]

theorem fle_refl {a : F64} (ha : fisNaN a = false) : fle a a = true := fle_iff.2 ⟨ha, ha, le_refl _⟩

theorem flt_eq_false_of_fle {a b : F64} (h : fle a b = true) : flt b a = false := by
  obtain ⟨ha, hb, _⟩ := fle_iff.1 h
  exact (flt_eq_false_iff hb ha).2 h

theorem flt_eq_false_of_isNaN {a b : F64} (h : fisNaN a = true ∨ fisNaN b = true) : flt a b = false := by
  rcases h with h | h <;> simp [flt, h]

theorem clamp_of_below {v lo hi : F64} (h : flt v lo = true) : clamp v lo hi = lo := if_pos h

theorem clamp_of_above {v lo hi : F64} (hlo : flt v lo = false) (h : fgt v hi = true) : clamp v lo hi = hi := by
  rw [clamp, if_neg (by simp [hlo]), if_pos h]

theorem clamp_of_inside {v lo hi : F64} (hlo : flt v lo = false) (hhi : fgt v hi = false) : clamp v lo hi = v := by
  rw [clamp, if_neg (by simp [hlo]), if_neg (by simp [hhi])]

theorem clamp_of_isNaN {v : F64} (h : fisNaN v = true) (lo hi : F64) : clamp v lo hi = v :=
  clamp_of_inside (flt_eq_false_of_isNaN (.inl h)) (flt_eq_false_of_isNaN (.inr h))

/-- A number clamped lies within its bounds. -/
theorem fbetween_clamp {v lo hi : F64} (hb : fle lo hi = true) (hv : fisNaN v = false) :
    fbetween lo (clamp v lo hi) hi = true := by
  obtain ⟨hnlo, hnhi, _⟩ := fle_iff.1 hb
  rw [fbetween, Bool.and_eq_true]
  cases hlo : flt v lo with
  | true => rw [clamp_of_below hlo]; exact ⟨fle_refl hnlo, hb⟩
  | false =>
    cases hhi : fgt v hi with
    | true => rw [clamp_of_above hlo hhi]; exact ⟨hb, fle_refl hnhi⟩
    | false =>
      rw [clamp_of_inside hlo hhi]
      exact ⟨(flt_eq_false_iff hv hnlo).1 hlo, (flt_eq_false_iff hnhi hv).1 hhi⟩

/-- Settles O29: -0.0 lies inside [0.0, 1.0], for it is not below 0.0. -/
theorem clampStaysWithinItsBounds : Obligations.ClampStaysWithinItsBounds :=
  ⟨fun _ _ _ => fbetween_clamp,
    fun _ _ _ hlo hhi => clamp_of_inside (flt_eq_false_of_fle hlo) (flt_eq_false_of_fle hhi),
    fun _ lo hi h => clamp_of_isNaN h lo hi,
    clamp_of_inside (by decide) (by decide)⟩

end Sys2Proof.Machine
end

section
/-! The branches of `gammaLinear` (40_colormath.md R112, R118). -/

namespace Sys2Proof.Machine

/-- A value not above the threshold takes the linear branch (40_colormath.md R112). -/
theorem gammaLinear_of_fle {s : F64} (h : fle s (flit 4045 5) = true) (E : Elem) :
    gammaLinear E s = fdiv s (flit 1292 2) := by
  have hg : fgt s (flit 4045 5) = false := flt_eq_false_of_fle h
  rw [gammaLinear, if_neg (by simp [hg])]

/-- Settles O31: both fixed values lie not above the threshold, and their quotients are computed. -/
theorem thresholdTakesTheLinearBranch : Obligations.ThresholdTakesTheLinearBranch := by
  refine ⟨fun E _ h => gammaLinear_of_fle h E, fun E => ?_, fun E => ?_⟩
  · rw [gammaLinear_of_fle (by decide)]
    decide
  · rw [gammaLinear_of_fle (by decide)]
    decide

theorem gammaLinear_zero (E : Elem) : gammaLinear E (fnat 0) = fnat 0 := by
  rw [gammaLinear_of_fle (by decide)]
  decide

/-- Settles O30: 0.0 takes the linear branch, and 1.0 the power of 1.0, which R12(b) fixes. -/
theorem gammaLinearFixesZeroAndOne : Obligations.GammaLinearFixesZeroAndOne :=
  ⟨by decide, unit8_white,
    fun E hE => ⟨gammaLinear_zero E, gammaLinear_one (hE.pow_one (flit 24 1) (by decide))⟩⟩

end Sys2Proof.Machine
end

section
/-! Rounding keeps a lower bound that is itself a binary64 value (00_scope.md R11), and what that says of a multiplication
by 100. -/

namespace Sys2Proof.Machine

/-- A whole number not above `m / 2^d` is not above it rounded. -/
theorem le_roundShift {m k : Nat} {d : Int} (h : k * 2 ^ d.toNat ≤ m * 2 ^ (-d).toNat) : k ≤ roundShift m d := by
  unfold roundShift
  split
  · next hd => simpa [Int.toNat_of_nonpos hd] using h
  · next hd =>
    have hneg : (-d).toNat = 0 := by omega
    have hquot : k ≤ m / 2 ^ d.toNat := by
      rw [Nat.le_div_iff_mul_le (Nat.two_pow_pos _)]
      simpa [hneg] using h
    dsimp only
    split <;> omega

/-- The power of two of the last place that `m * 2^e` is rounded to (00_scope.md R11). -/
def unitExponent (m : Nat) (e : Int) : Int := max (e + (Nat.log2 m : Int) - 52) (-1074)

/-- The 63 lower bits of `m * 2^e` rounded, before a value past the largest finite one becomes an infinity. -/
def roundedBits (m : Nat) (e : Int) : Nat :=
  (unitExponent m e + 1074).toNat * 2 ^ 52 + roundShift m (unitExponent m e - e)

/-- Rounding packs the rounded bits, with the bits of an infinity as their upper end. -/
theorem roundPack_eq (neg : Bool) {m : Nat} (hm : m ≠ 0) (e : Int) :
    roundPack neg m e = fpack neg (min (roundedBits m e) (2047 * 2 ^ 52)) := by
  have hdef : roundPack neg m e =
      if 2047 * 2 ^ 52 ≤ roundedBits m e then finf neg else fpack neg (roundedBits m e) := if_neg hm
  rw [hdef]
  split
  · next h => rw [Nat.min_eq_right h, finf]
  · next h => rw [Nat.min_eq_left (Nat.le_of_not_le h)]

/-- A rounded value keeps at least 53 bits where its last place lies above the subnormal one. -/
theorem two_pow_52_le_roundShift {m : Nat} (hm : m ≠ 0) {e : Int} (hq : -1074 < unitExponent m e) :
    2 ^ 52 ≤ roundShift m (unitExponent m e - e) := by
  have hd : unitExponent m e - e = (Nat.log2 m : Int) - 52 := by unfold unitExponent at *; omega
  rw [hd]
  apply le_roundShift
  calc 2 ^ 52 * 2 ^ ((Nat.log2 m : Int) - 52).toNat
      = 2 ^ Nat.log2 m * 2 ^ (-((Nat.log2 m : Int) - 52)).toNat := by
        rw [← Nat.pow_add, ← Nat.pow_add]
        congr 1
        omega
    _ ≤ m * 2 ^ (-((Nat.log2 m : Int) - 52)).toNat := Nat.mul_le_mul_right _ (Nat.log2_self_le hm)

/-- A binary64 value `k * 2^(p - 1074)` not above `m * 2^e` is not above it rounded: `k` is a significand at the last place
`p - 1074`, with 53 bits where that is not the subnormal one. -/
theorem le_roundedBits {m k p : Nat} {e : Int} (hk0 : 0 < k) (hk : k < 2 ^ 53) (hp : 0 < p → 2 ^ 52 ≤ k)
    (h : k * 2 ^ (p - 1074 - e).toNat ≤ m * 2 ^ (e - (p - 1074)).toNat) : p * 2 ^ 52 + k ≤ roundedBits m e := by
  have hm : m ≠ 0 := by
    rintro rfl
    have hpos := Nat.mul_pos hk0 (Nat.two_pow_pos (p - 1074 - e).toNat)
    omega
  unfold roundedBits
  rcases Int.lt_trichotomy (unitExponent m e) (p - 1074) with hlt | heq | hgt
  · have hkp := hp (by unfold unitExponent at hlt; omega)
    have hexp : Nat.log2 m + 1 + (e - (p - 1074)).toNat ≤ 52 + (p - 1074 - e).toNat := by
      unfold unitExponent at hlt
      omega
    have hcontra : m * 2 ^ (e - (p - 1074)).toNat < k * 2 ^ (p - 1074 - e).toNat :=
      calc m * 2 ^ (e - (p - 1074)).toNat
          < 2 ^ (Nat.log2 m + 1) * 2 ^ (e - (p - 1074)).toNat :=
            Nat.mul_lt_mul_of_pos_right Nat.lt_log2_self (Nat.two_pow_pos _)
        _ = 2 ^ (Nat.log2 m + 1 + (e - (p - 1074)).toNat) := (Nat.pow_add _ _ _).symm
        _ ≤ 2 ^ (52 + (p - 1074 - e).toNat) := Nat.pow_le_pow_right (by decide) hexp
        _ = 2 ^ 52 * 2 ^ (p - 1074 - e).toNat := Nat.pow_add _ _ _
        _ ≤ k * 2 ^ (p - 1074 - e).toNat := Nat.mul_le_mul_right _ hkp
    omega
  · have hround : k ≤ roundShift m (p - 1074 - e) := le_roundShift (by rwa [Int.neg_sub])
    rw [heq]
    omega
  · have hround := two_pow_52_le_roundShift hm (by omega : -1074 < unitExponent m e)
    omega

/-- Where `e` lies at most `d` places below the last place of `k`, it is enough that `k * 2^d` is not above `m`. -/
theorem le_roundedBits_of_shift {m k p d : Nat} {e : Int} (hk0 : 0 < k) (hk : k < 2 ^ 53) (hp : 0 < p → 2 ^ 52 ≤ k)
    (hd : p - 1074 - e ≤ d) (h : k * 2 ^ d ≤ m) : p * 2 ^ 52 + k ≤ roundedBits m e := by
  refine le_roundedBits hk0 hk hp ?_
  calc k * 2 ^ (p - 1074 - e).toNat
      ≤ k * 2 ^ d := Nat.mul_le_mul_left _ (Nat.pow_le_pow_right (by decide) (by omega))
    _ ≤ m := h
    _ ≤ m * 2 ^ (e - (p - 1074)).toNat := Nat.le_mul_of_pos_right _ (Nat.two_pow_pos _)

theorem toNat_fpack {neg : Bool} {bits : Nat} (h : bits ≤ 2047 * 2 ^ 52) :
    (fpack neg bits).toNat = bits + if neg then 2 ^ 63 else 0 := by
  cases neg <;> simp only [fpack, BitVec.toNat_ofNat, if_true, if_false, Bool.false_eq_true] <;> omega

/-- The sign bit says whether the encoding is 2^63 or more. -/
theorem fsign_eq_decide (v : F64) : fsign v = decide (2 ^ 63 ≤ v.toNat) := by
  have hm : v.msb = fsign v := BitVec.msb_eq_getLsbD_last v
  rw [← hm, BitVec.msb_eq_decide]

theorem fkey_fpack {neg : Bool} {bits : Nat} (h : bits ≤ 2047 * 2 ^ 52) :
    fkey (fpack neg bits) = if neg then -(bits : Int) else (bits : Int) := by
  rw [fkey, fsign_eq_decide, toNat_fpack h]
  cases neg <;> simp <;> omega

theorem fisNaN_fpack {neg : Bool} {bits : Nat} (h : bits ≤ 2047 * 2 ^ 52) : fisNaN (fpack neg bits) = false := by
  simp only [fisNaN, fexpField, ffrac, toNat_fpack h, Bool.and_eq_false_iff, beq_eq_false_iff_ne, bne_eq_false_iff_eq]
  cases neg <;> simp only [if_true, if_false, Bool.false_eq_true] <;> omega

theorem natAbs_fkey (v : F64) : (fkey v).natAbs = v.toNat % 2 ^ 63 := by
  cases h : fsign v <;> simp only [fkey, h, if_true, if_false, Bool.false_eq_true] <;> omega

/-- Apart from zero the sign bit says on which side of it a number lies. -/
theorem fsign_of_fkey_ne_zero {v : F64} (h : fkey v ≠ 0) : fsign v = decide (fkey v < 0) := by
  cases hs : fsign v <;> simp only [fkey, hs, if_true, if_false, Bool.false_eq_true] at h ⊢ <;> symm <;>
    simp only [decide_eq_true_eq, decide_eq_false_iff_not] <;> omega

theorem fmul_of_finite {a b : F64} (ha : fisFinite a = true) (hb : fisFinite b = true) :
    fmul a b = roundPack (fsign a != fsign b) (fmant a * fmant b) (fscale a + fscale b) := by
  have hnumber : ∀ v, fisFinite v = true → fisNaN v = false ∧ fisInf v = false := by
    simp +contextual [fisFinite, fisNaN, fisInf]
  obtain ⟨hna, hia⟩ := hnumber a ha
  obtain ⟨hnb, hib⟩ := hnumber b hb
  simp [fmul, hna, hnb, hia, hib]

/-- 100.0 is 100 * 2^46 units of 2^-46. -/
theorem fmul_hundred_of_finite {c : F64} (h : fisFinite c = true) :
    fmul c (fnat 100) = roundPack (fsign c) (fmant c * (100 * 2 ^ 46)) (fscale c + -46) := by
  have hmant : fmant (fnat 100) = 100 * 2 ^ 46 := by decide
  have hscale : fscale (fnat 100) = -46 := by decide
  have hsign : fsign (fnat 100) = false := by decide
  rw [fmul_of_finite h (by decide), hmant, hscale, hsign, Bool.bne_false]

theorem fmul_hundred_of_isInf {c : F64} (h : fisInf c = true) : fmul c (fnat 100) = finf (fsign c) := by
  have hn : fisNaN c = false := by simp_all [fisInf, fisNaN]
  have hz : fisZero c = false := by simp_all [fisInf, fisZero]
  have hnan : fisNaN (fnat 100) = false := by decide
  have hzero : fisZero (fnat 100) = false := by decide
  have hsign : fsign (fnat 100) = false := by decide
  simp [fmul, h, hn, hz, hnan, hzero, hsign]

/-- A finite value apart from zero is at least one unit of 2^-1074, and one of magnitude at least 1.0 is a 53-bit
significand in units of 2^-52 or larger. -/
theorem fmant_fscale_bounds {c : F64} (h : fkey c ≠ 0) :
    0 < fmant c ∧ -1074 ≤ fscale c ∧ (1023 * 2 ^ 52 ≤ (fkey c).natAbs → 2 ^ 52 ≤ fmant c ∧ -52 ≤ fscale c) := by
  have habs := natAbs_fkey c
  unfold fmant fscale fexpField ffrac
  split <;> omega

/-- 100.0 times a number apart from zero has the number's sign, is apart from zero, and is at least 100.0 in magnitude
where the number's is at least 1.0. -/
theorem fmul_hundred {c : F64} (hn : fisNaN c = false) (h0 : fkey c ≠ 0) :
    ∃ bits ≤ 2047 * 2 ^ 52, fmul c (fnat 100) = fpack (fsign c) bits ∧ 0 < bits ∧
      (1023 * 2 ^ 52 ≤ (fkey c).natAbs → 1028 * 2 ^ 52 + 100 * 2 ^ 46 ≤ bits) := by
  cases hf : fisFinite c with
  | false =>
    have hi : fisInf c = true := by simp_all [fisFinite, fisInf, fisNaN]
    exact ⟨2047 * 2 ^ 52, le_refl _, fmul_hundred_of_isInf hi, by decide, fun _ => by decide⟩
  | true =>
    obtain ⟨hpos, hscale, hone⟩ := fmant_fscale_bounds h0
    refine ⟨min _ _, Nat.min_le_right _ _,
      (fmul_hundred_of_finite hf).trans (roundPack_eq _ (by omega) _), ?_, fun h1 => ?_⟩
    · have hbits : 0 * 2 ^ 52 + 1 ≤ roundedBits (fmant c * (100 * 2 ^ 46)) (fscale c + -46) :=
        le_roundedBits_of_shift (d := 46) (by decide) (by decide) (fun h => absurd h (lt_irrefl _)) (by omega) (by omega)
      exact Nat.lt_min.2 ⟨hbits, by decide⟩
    · obtain ⟨hmant, hscale1⟩ := hone h1
      have hbits : 1028 * 2 ^ 52 + 100 * 2 ^ 46 ≤ roundedBits (fmant c * (100 * 2 ^ 46)) (fscale c + -46) :=
        le_roundedBits_of_shift (d := 52) (by decide) (by decide) (fun _ => by decide) (by omega) (by omega)
      exact Nat.le_min.2 ⟨hbits, by decide⟩

end Sys2Proof.Machine
end

section
/-! The scaling to percentage and the conversion to Lab (40_colormath.md R114 to R118). -/

namespace Sys2Proof.Machine

theorem fkey_zero : fkey (fnat 0) = 0 := by decide

theorem fkey_one : fkey (fnat 1) = 1023 * 2 ^ 52 := by decide

theorem fkey_hundred : fkey (fnat 100) = 1028 * 2 ^ 52 + 100 * 2 ^ 46 := by decide

theorem percent_zero : percent (fnat 0) = fnat 0 := by decide

theorem percent_one : percent (fnat 1) = fnat 100 := by decide

/-- A channel below 0.0 is 0.0 percent, as the channel clamped to 0.0 is (40_colormath.md R114). -/
theorem percent_of_below {c : F64} (h : flt c (fnat 0) = true) : percent c = fnat 0 := by
  obtain ⟨hn, hn0, hlt⟩ := flt_iff.1 h
  rw [fkey_zero] at hlt
  have h0 : fkey c ≠ 0 := by omega
  have hs : fsign c = true := by rw [fsign_of_fkey_ne_zero h0, decide_eq_true hlt]
  obtain ⟨bits, hle, hmul, hpos, _⟩ := fmul_hundred hn h0
  refine clamp_of_below (flt_iff.2 ⟨?_, hn0, ?_⟩) <;> rw [hmul, hs]
  · exact fisNaN_fpack hle
  · rw [fkey_fpack hle, fkey_zero, if_pos rfl]
    omega

/-- A channel above 1.0 is 100.0 percent, as the channel clamped to 1.0 is (40_colormath.md R114). -/
theorem percent_of_above {c : F64} (h : fgt c (fnat 1) = true) : percent c = fnat 100 := by
  obtain ⟨_, hn, hlt⟩ := flt_iff.1 h
  rw [fkey_one] at hlt
  have h0 : fkey c ≠ 0 := by omega
  have hs : fsign c = false := by rw [fsign_of_fkey_ne_zero h0, decide_eq_false (by omega)]
  obtain ⟨bits, hle, hmul, _, hbits⟩ := fmul_hundred hn h0
  have hge := hbits (by omega)
  rw [percent, hmul, hs]
  have hnan := fisNaN_fpack (neg := false) hle
  have hkey : fkey (fpack false bits) = bits := fkey_fpack hle
  have hlo : flt (fpack false bits) (fnat 0) = false :=
    flt_eq_false_of_fle (fle_iff.2 ⟨by decide, hnan, by rw [hkey, fkey_zero]; omega⟩)
  rcases Nat.eq_or_lt_of_le hge with heq | hgt
  · rw [← heq]
    decide
  · exact clamp_of_above hlo (flt_iff.2 ⟨by decide, hnan, by rw [hkey, fkey_hundred]; omega⟩)

/-- Clamping a channel to [0,1] before the scaling changes nothing, for the scaling clamps the same (40_colormath.md
R114). -/
theorem percent_clamp (c : F64) : percent (clamp c (fnat 0) (fnat 1)) = percent c := by
  cases hlo : flt c (fnat 0) with
  | true => rw [clamp_of_below hlo, percent_zero, percent_of_below hlo]
  | false =>
    cases hhi : fgt c (fnat 1) with
    | true => rw [clamp_of_above hlo hhi, percent_one, percent_of_above hhi]
    | false => rw [clamp_of_inside hlo hhi]

/-- The correction of 0.0 is its constant term, 16/116 (40_colormath.md R116). -/
theorem labF_zero (E : Elem) : labF E (fnat 0) = fdiv (fnat 16) (fnat 116) := by
  have h : fgt (fnat 0) (flit 8856 6) = false := by decide
  rw [labF, if_neg (by simp [h])]
  decide +kernel

/-- Every row of the default matrix takes black to 0.0 (40_colormath.md R115). -/
theorem matrixRow_black :
    ∀ row ∈ [defaultMatrix.x, defaultMatrix.y, defaultMatrix.z],
      matrixRow row ⟨fnat 0, fnat 0, fnat 0⟩ = fnat 0 := by
  decide

/-- Black is Lab (0, 0, 0) under the default matrix: each corrected row is 16/116, and 116.0 times it is 16.0 exactly
(40_colormath.md R117, R118(c)). -/
theorem rgbToLab_black (E : Elem) :
    rgbToLab ⟨E, defaultMatrix⟩ ⟨fnat 0, fnat 0, fnat 0⟩ = ⟨fnat 0, fnat 0, fnat 0⟩ := by
  have hx : fdiv (matrixRow defaultMatrix.x ⟨fnat 0, fnat 0, fnat 0⟩) (flit 95047 3) = fnat 0 := by
    rw [matrixRow_black _ (by simp)]; decide
  have hy : fdiv (matrixRow defaultMatrix.y ⟨fnat 0, fnat 0, fnat 0⟩) (fnat 100) = fnat 0 := by
    rw [matrixRow_black _ (by simp)]; decide
  have hz : fdiv (matrixRow defaultMatrix.z ⟨fnat 0, fnat 0, fnat 0⟩) (flit 108883 3) = fnat 0 := by
    rw [matrixRow_black _ (by simp)]; decide
  simp only [rgbToLab, percent_zero, hx, hy, hz, labF_zero]
  decide

/-- Settles O32: the conversion reads its channels through `percent` alone. -/
theorem labOfBlackAndOfClampedChannels : Obligations.LabOfBlackAndOfClampedChannels :=
  ⟨rgbToLab_black, fun P c => by simp only [rgbToLab, percent_clamp]⟩

end Sys2Proof.Machine
end

section
/-! What DE2000 and NEAREST write at their completion (41_distance.md R153, R154). -/

namespace Sys2Proof.Machine

/-- Settles O18: the results written are those of `de2000Results`. -/
theorem de2000Completes : Obligations.De2000Completes :=
  fun _ hc hw => directCommand_of_completing_written hc hw de2000Results

/-- Settles O19: the results written are those of `nearestResults`, and an index of the palette is at most 6. -/
theorem nearestCompletes : Obligations.NearestCompletes :=
  fun _ hc hw =>
    ⟨_, _, Nat.le_of_lt_succ (Fin.isLt _), rfl, rfl, directCommand_of_completing_written hc hw nearestResults⟩

end Sys2Proof.Machine
end

section
/-! The selection of the nearest palette entry (41_distance.md R152). -/

namespace Sys2Proof.Machine

/-- The distance of a colour from entry `j` of the palette, the colour first (41_distance.md R152). -/
def entryDistance (P : Params) (pal : Palette) (p : LinearColor) (j : Fin 7) : F64 :=
  colorDifference P p (paletteEntry pal j)

/-- The selection after the entries below `n`, where `d j` is the distance of entry `j`: an entry below `n` with its
distance, none of them strictly closer, and none before it as close. -/
def FirstSmallest (d : Fin 7 → F64) (n : Nat) (best : Fin 7 × F64) : Prop :=
  best.1.val < n ∧ best.2 = d best.1 ∧
    ∀ j : Fin 7, j.val < n → flt (d j) best.2 = false ∧ (j < best.1 → fle (d j) best.2 = false)

theorem flt_irrefl (a : F64) : flt a a = false := by
  rw [← Bool.not_eq_true, flt_iff]
  omega

/-- The first entry is selected before any comparison, a NaN distance too. -/
theorem firstSmallest_zero (d : Fin 7 → F64) : FirstSmallest d 1 (0, d 0) := by
  refine ⟨Nat.one_pos, rfl, fun j hj => ⟨?_, fun h => absurd h (Fin.not_lt_zero j)⟩⟩
  rw [show j = 0 from Fin.ext (by simpa using hj)]
  exact flt_irrefl (d 0)

/-- What is not strictly closer than the selection is not as close as an entry strictly closer than the selection. -/
theorem fle_eq_false_of_flt {a b c : F64} (hab : flt a b = false) (hcb : flt c b = true) : fle a c = false := by
  obtain ⟨_, hb, hlt⟩ := flt_iff.1 hcb
  rw [← Bool.not_eq_true, fle_iff]
  rintro ⟨ha, _, hle⟩
  rw [← Bool.not_eq_true, flt_iff] at hab
  exact hab ⟨ha, hb, lt_of_le_of_lt hle hlt⟩

theorem flt_eq_false_of_fle_eq_false {a b : F64} (h : fle a b = false) : flt a b = false := by
  rw [← Bool.not_eq_true, fle_iff] at h
  rw [← Bool.not_eq_true, flt_iff]
  exact fun ⟨ha, hb, hlt⟩ => h ⟨ha, hb, le_of_lt hlt⟩

/-- A comparison takes the entry where it is strictly closer, and then no entry before it is as close; else it keeps the
selection, which lies before the entry. -/
theorem firstSmallest_closer {P : Params} {pal : Palette} {p : LinearColor} {best : Fin 7 × F64} (i : Fin 7)
    (h : FirstSmallest (entryDistance P pal p) i.val best) :
    FirstSmallest (entryDistance P pal p) (i.val + 1) (closer P pal p best i) := by
  obtain ⟨hlt, hdist, hmin⟩ := h
  dsimp only [closer]
  split
  · next hcloser =>
    refine ⟨Nat.lt_succ_self _, rfl, fun j hj => ?_⟩
    rcases Nat.lt_or_eq_of_le (Nat.le_of_lt_succ hj) with hji | hji
    · have hfar := fle_eq_false_of_flt (hmin j hji).1 hcloser
      exact ⟨flt_eq_false_of_fle_eq_false hfar, fun _ => hfar⟩
    · rw [Fin.ext hji]
      exact ⟨flt_irrefl _, fun h => absurd h (lt_irrefl i)⟩
  · next hkeep =>
    refine ⟨Nat.lt_succ_of_lt hlt, hdist, fun j hj => ?_⟩
    rcases Nat.lt_or_eq_of_le (Nat.le_of_lt_succ hj) with hji | hji
    · exact hmin j hji
    · rw [Fin.ext hji]
      exact ⟨Bool.eq_false_of_not_eq_true hkeep, fun h => absurd h (Nat.lt_asymm hlt)⟩

/-- The six comparisons in index order keep the selection the first smallest. -/
theorem firstSmallest_nearest (P : Params) (pal : Palette) (p : LinearColor) :
    FirstSmallest (entryDistance P pal p) 7 (nearest P pal p) :=
  firstSmallest_closer 6 <| firstSmallest_closer 5 <| firstSmallest_closer 4 <| firstSmallest_closer 3 <|
    firstSmallest_closer 2 <| firstSmallest_closer 1 <| firstSmallest_zero _

/-- Settles O33: the selection after all seven entries is the first smallest. -/
theorem nearestIsTheFirstSmallest : Obligations.NearestIsTheFirstSmallest := by
  intro P pal p
  obtain ⟨_, hdist, hmin⟩ := firstSmallest_nearest P pal p
  exact ⟨hdist, fun j => (hmin j j.isLt).1, fun j => (hmin j j.isLt).2⟩

end Sys2Proof.Machine
end

section
/-! The kinds of binary64 values and what an addition of each kind is (00_scope.md R11). -/

namespace Sys2Proof.Machine

/-- The NaN an operation makes is one: its constant sets the exponent and the quiet bit (log 11). -/
theorem fisNaN_fnan : fisNaN fnan = true := by
  have hones : fnan.extractLsb' 51 12 = BitVec.allOnes 12 := by
    rw [fnan, BitVec.extractLsb'_or]
    exact BitVec.or_allOnes
  have hbits := congrArg BitVec.toNat hones
  rw [BitVec.extractLsb'_toNat, Nat.shiftRight_eq_div_pow, BitVec.toNat_allOnes] at hbits
  simp only [fisNaN, fexpField, ffrac, Bool.and_eq_true, beq_iff_eq, bne_iff_ne]
  omega

theorem isNaN_or_isInf_or_isFinite (v : F64) : fisNaN v = true ∨ fisInf v = true ∨ fisFinite v = true := by
  cases hf : fisFinite v with
  | true => exact .inr (.inr rfl)
  | false => cases hq : ffrac v == 0 <;> simp_all [fisNaN, fisInf, fisFinite]

theorem fisNaN_of_isInf {v : F64} (h : fisInf v = true) : fisNaN v = false := by simp_all [fisInf, fisNaN]

theorem fisNaN_of_isFinite {v : F64} (h : fisFinite v = true) : fisNaN v = false := by simp_all [fisFinite, fisNaN]

theorem fisInf_of_isFinite {v : F64} (h : fisFinite v = true) : fisInf v = false := by simp_all [fisFinite, fisInf]

theorem fisZero_of_isInf {v : F64} (h : fisInf v = true) : fisZero v = false := by simp_all [fisInf, fisZero]

theorem fisZero_iff {v : F64} : fisZero v = true ↔ fkey v = 0 := by
  have habs := natAbs_fkey v
  simp only [fisZero, fexpField, ffrac, Bool.and_eq_true, beq_iff_eq]
  omega

theorem fmant_of_isZero {v : F64} (h : fisZero v = true) : fmant v = 0 := by simp_all [fisZero, fmant]

theorem fadd_of_isNaN {a b : F64} (h : fisNaN a = true ∨ fisNaN b = true) : fadd a b = fnan :=
  if_pos (by simpa using h)

theorem fadd_of_isInf_left {a b : F64} (ha : fisInf a = true) (hb : fisNaN b = false) :
    fadd a b = if fisInf b && (fsign a != fsign b) then fnan else a := by
  simp [fadd, fisNaN_of_isInf ha, ha, hb]

theorem fadd_of_isInf_right {a b : F64} (ha : fisFinite a = true) (hb : fisInf b = true) : fadd a b = b := by
  simp [fadd, fisNaN_of_isFinite ha, fisInf_of_isFinite ha, fisNaN_of_isInf hb, hb]

/-- The common power of two in which the sum of two finite values is a whole number. -/
def sumScale (a b : F64) : Int := min (fscale a) (fscale b)

/-- The exact sum of two finite values, in units of `2 ^ sumScale a b`. -/
def exactSum (a b : F64) : Int :=
  fsigned a * 2 ^ (fscale a - sumScale a b).toNat + fsigned b * 2 ^ (fscale b - sumScale a b).toNat

/-- A whole number of units `2 ^ e` rounded; `zeroSign` is the sign of an exact zero. -/
def roundSum (zeroSign : Bool) (sum e : Int) : F64 :=
  if sum = 0 then fzero zeroSign else roundPack (decide (sum < 0)) sum.natAbs e

theorem fadd_of_isFinite {a b : F64} (ha : fisFinite a = true) (hb : fisFinite b = true) :
    fadd a b = roundSum (fsign a && fsign b) (exactSum a b) (sumScale a b) := by
  simp only [fadd, fisNaN_of_isFinite ha, fisNaN_of_isFinite hb, fisInf_of_isFinite ha, fisInf_of_isFinite hb,
    Bool.or_false, Bool.false_eq_true, if_false]
  rfl

/-- A sum that is a number has numbers as its operands. -/
theorem fisNaN_of_fisNaN_fadd {a b : F64} (h : fisNaN (fadd a b) = false) : fisNaN a = false ∧ fisNaN b = false := by
  by_contra hn
  rw [fadd_of_isNaN (by cases ha : fisNaN a <;> simp_all), fisNaN_fnan] at h
  cases h

theorem fmul_of_isNaN {a b : F64} (h : fisNaN a = true ∨ fisNaN b = true) : fmul a b = fnan :=
  if_pos (by simpa using h)

/-- A square root that is a number is one of a number. -/
theorem fisNaN_of_fisNaN_fsqrt {v : F64} (h : fisNaN (fsqrt v) = false) : fisNaN v = false := by
  by_contra hn
  rw [fsqrt, if_pos (by simpa using hn), fisNaN_fnan] at h
  cases h

end Sys2Proof.Machine
end

section
/-! Values that agree up to a sign (41_distance.md R150). Addition, multiplication and division carry an agreement
through, the signs of zeros and the bits of a NaN left aside. -/

namespace Sys2Proof.Machine

/-- `y` is `x`, negated where `neg` says so: both are NaN, or both are numbers and their places in the order agree. Two
zeros agree whatever their signs are, and so do two NaNs whatever their bits are. -/
inductive AgreeUpToSign (neg : Bool) (x y : F64) : Prop
  | nan (hx : fisNaN x = true) (hy : fisNaN y = true)
  | number (hx : fisNaN x = false) (hy : fisNaN y = false) (hkey : fkey y = if neg then -fkey x else fkey x)

theorem AgreeUpToSign.refl (x : F64) : AgreeUpToSign false x x := by
  cases h : fisNaN x with
  | true => exact .nan h h
  | false => exact .number h h rfl

theorem AgreeUpToSign.symm {neg : Bool} {x y : F64} (h : AgreeUpToSign neg x y) : AgreeUpToSign neg y x := by
  cases h with
  | nan hx hy => exact .nan hy hx
  | number hx hy hkey => exact .number hy hx (by cases neg <;> simp [hkey])

theorem AgreeUpToSign.fisNaN_eq {neg : Bool} {x y : F64} (h : AgreeUpToSign neg x y) : fisNaN y = fisNaN x := by
  cases h with
  | nan hx hy | number hx hy _ => rw [hx, hy]

/-- Where one of them is a number, its place in the order gives the other's. -/
theorem AgreeUpToSign.fkey_eq {neg : Bool} {x y : F64} (h : AgreeUpToSign neg x y) (hx : fisNaN x = false) :
    fkey y = if neg then -fkey x else fkey x := by
  cases h with
  | nan hx' _ => rw [hx] at hx'; cases hx'
  | number _ _ hkey => exact hkey

/-- The two fields below the sign depend on the 63 lower bits alone. -/
theorem fields_of_magnitude {x y : F64} (h : y.toNat % 2 ^ 63 = x.toNat % 2 ^ 63) :
    fexpField y = fexpField x ∧ ffrac y = ffrac x := by
  unfold fexpField ffrac
  omega

theorem fisNaN_of_magnitude {x y : F64} (h : y.toNat % 2 ^ 63 = x.toNat % 2 ^ 63) : fisNaN y = fisNaN x := by
  obtain ⟨he, hf⟩ := fields_of_magnitude h
  simp only [fisNaN, he, hf]

theorem magnitude_of_fkey {neg : Bool} {x y : F64} (h : fkey y = if neg then -fkey x else fkey x) :
    y.toNat % 2 ^ 63 = x.toNat % 2 ^ 63 := by
  rw [← natAbs_fkey, ← natAbs_fkey, h]
  cases neg <;> simp

/-- Of numbers that agree up to a sign everything but the sign is the same. -/
theorem parts_of_fkey {neg : Bool} {x y : F64} (h : fkey y = if neg then -fkey x else fkey x) :
    fisInf y = fisInf x ∧ fisZero y = fisZero x ∧ fisFinite y = fisFinite x ∧ fmant y = fmant x ∧
      fscale y = fscale x := by
  obtain ⟨he, hf⟩ := fields_of_magnitude (magnitude_of_fkey h)
  simp only [fisInf, fisZero, fisFinite, fmant, fscale, he, hf, and_self]

/-- Of numbers that agree up to a sign the signs differ as `neg` says, apart from zeros. -/
theorem fsign_of_fkey {neg : Bool} {x y : F64} (h : fkey y = if neg then -fkey x else fkey x) :
    fisZero x = true ∨ fsign y = (fsign x != neg) := by
  rw [fisZero_iff]
  refine or_iff_not_imp_left.2 fun hx => ?_
  rw [fsign_of_fkey_ne_zero hx, fsign_of_fkey_ne_zero (by cases neg <;> simp [h, hx]), h]
  cases neg with
  | false => simp
  | true =>
    rw [if_pos rfl, Bool.bne_true, ← decide_not]
    exact decide_eq_decide.2 (by omega)

theorem fsigned_of_fkey {neg : Bool} {x y : F64} (h : fkey y = if neg then -fkey x else fkey x) :
    fsigned y = if neg then -fsigned x else fsigned x := by
  obtain ⟨_, _, _, hm, _⟩ := parts_of_fkey h
  unfold fsigned
  rw [hm]
  rcases fsign_of_fkey h with hz | hs
  · simp [fmant_of_isZero hz]
  · rw [hs]
    cases fsign x <;> cases neg <;> simp

@[simp] theorem fisNaN_fneg (v : F64) : fisNaN (fneg v) = fisNaN v :=
  fisNaN_of_magnitude (magnitude_of_fkey (neg := true) (fkey_fneg v))

/-- A value agrees with its negative. -/
theorem agree_fneg (v : F64) : AgreeUpToSign true v (fneg v) := by
  cases h : fisNaN v with
  | true => exact .nan h (by simpa using h)
  | false => exact .number h (by simpa using h) (fkey_fneg v)

/-- Two results that pack the same bits agree if their signs do, or if both are zeros. -/
theorem agree_fpack {neg s t : Bool} {bits : Nat} (hle : bits ≤ 2047 * 2 ^ 52) (h : bits = 0 ∨ t = (s != neg)) :
    AgreeUpToSign neg (fpack s bits) (fpack t bits) := by
  refine .number (fisNaN_fpack hle) (fisNaN_fpack hle) ?_
  rw [fkey_fpack hle, fkey_fpack hle]
  rcases h with rfl | rfl
  · simp
  · cases s <;> cases neg <;> simp

theorem agree_fzero (neg s t : Bool) : AgreeUpToSign neg (fzero s) (fzero t) :=
  agree_fpack (Nat.zero_le _) (.inl rfl)

theorem agree_finf {neg s t : Bool} (h : t = (s != neg)) : AgreeUpToSign neg (finf s) (finf t) :=
  agree_fpack (le_refl _) (.inr h)

theorem agree_fnan (neg : Bool) : AgreeUpToSign neg fnan fnan := .nan fisNaN_fnan fisNaN_fnan

/-- A rounding packs its sign with bits that do not depend on it, and a zero stays one. -/
theorem exists_roundPack_eq_fpack (m : Nat) (e : Int) :
    ∃ bits ≤ 2047 * 2 ^ 52, (m = 0 → bits = 0) ∧ ∀ s, roundPack s m e = fpack s bits := by
  by_cases hm : m = 0
  · exact ⟨0, Nat.zero_le _, fun _ => rfl, fun s => if_pos hm⟩
  · exact ⟨_, Nat.min_le_right _ _, fun h => absurd h hm, fun s => roundPack_eq s hm e⟩

theorem agree_roundPack {neg s t : Bool} {m : Nat} (e : Int) (h : m = 0 ∨ t = (s != neg)) :
    AgreeUpToSign neg (roundPack s m e) (roundPack t m e) := by
  obtain ⟨bits, hle, hzero, heq⟩ := exists_roundPack_eq_fpack m e
  rw [heq, heq]
  exact agree_fpack hle (h.imp_left hzero)

theorem agree_roundRatio {neg s t : Bool} {num : Nat} (den : Nat) (e : Int) (h : num = 0 ∨ t = (s != neg)) :
    AgreeUpToSign neg (roundRatio s num den e) (roundRatio t num den e) :=
  agree_roundPack _ (h.imp_left fun h0 => by simp [h0])

theorem agree_roundSum (neg z z' : Bool) (sum e : Int) :
    AgreeUpToSign neg (roundSum z sum e) (roundSum z' (if neg then -sum else sum) e) := by
  cases neg with
  | false =>
    rw [if_neg Bool.false_ne_true]
    by_cases h : sum = 0
    · simpa only [roundSum, h, if_true] using agree_fzero false z z'
    · simpa only [roundSum, h, if_false] using AgreeUpToSign.refl _
  | true =>
    rw [if_pos rfl]
    by_cases h : sum = 0
    · simpa only [roundSum, h, if_true, Int.neg_zero] using agree_fzero true z z'
    · simp only [roundSum, h, if_false, Int.neg_eq_zero, Int.natAbs_neg]
      refine agree_roundPack _ (.inr ?_)
      rw [Bool.bne_true, ← decide_not]
      exact decide_eq_decide.2 (by omega)

/-- A product agrees up to the product of the signs. -/
theorem AgreeUpToSign.mul {n₁ n₂ : Bool} {x y u v : F64} (hxy : AgreeUpToSign n₁ x y)
    (huv : AgreeUpToSign n₂ u v) :
    AgreeUpToSign (n₁ != n₂) (fmul x u) (fmul y v) := by
  cases hxy with
  | nan hx hy => rw [fmul_of_isNaN (.inl hx), fmul_of_isNaN (.inl hy)]; exact agree_fnan _
  | number hx hy hkey =>
    cases huv with
    | nan hu hv => rw [fmul_of_isNaN (.inr hu), fmul_of_isNaN (.inr hv)]; exact agree_fnan _
    | number hu hv hkey' =>
      obtain ⟨hinf, hzero, _, hmant, hscale⟩ := parts_of_fkey hkey
      obtain ⟨hinf', hzero', _, hmant', hscale'⟩ := parts_of_fkey hkey'
      have hsign : (fisZero x || fisZero u) = true ∨
          (fsign y != fsign v) = ((fsign x != fsign u) != (n₁ != n₂)) := by
        rcases fsign_of_fkey hkey with h | h
        · exact .inl (by simp [h])
        · refine (fsign_of_fkey hkey').imp (by simp +contextual) fun h' => ?_
          rw [h, h']
          simp only [Bool.xor_assoc, Bool.xor_left_comm n₁]
      simp only [fmul, hx, hy, hu, hv, hinf, hzero, hmant, hscale, hinf', hzero', hmant', hscale', Bool.or_false,
        Bool.false_eq_true, if_false]
      split
      · split
        · exact agree_fnan _
        · next hz => exact agree_finf (hsign.resolve_left hz)
      · refine agree_roundPack _ (hsign.imp_left fun hz => ?_)
        rcases Bool.or_eq_true_iff.1 hz with hz | hz <;> simp [fmant_of_isZero hz]

/-- A quotient agrees as its dividends do. -/
theorem AgreeUpToSign.div {neg : Bool} {x y : F64} (h : AgreeUpToSign neg x y) (d : F64) :
    AgreeUpToSign neg (fdiv x d) (fdiv y d) := by
  cases h with
  | nan hx hy => simpa only [fdiv, hx, hy, Bool.true_or, if_true] using agree_fnan neg
  | number hx hy hkey =>
    obtain ⟨hinf, hzero, _, hmant, hscale⟩ := parts_of_fkey hkey
    have hsign : fisZero x = true ∨ (fsign y != fsign d) = ((fsign x != fsign d) != neg) :=
      (fsign_of_fkey hkey).imp_right fun h => by rw [h]; exact Bool.xor_right_comm _ _ _
    simp only [fdiv, hx, hy, hinf, hzero, hmant, hscale, Bool.false_or]
    split
    · exact agree_fnan _
    split
    · next hi =>
      split
      · exact agree_fnan _
      · exact agree_finf (hsign.resolve_left (by simp [fisZero_of_isInf hi]))
    split
    · exact agree_fzero _ _ _
    split
    · split
      · exact agree_fnan _
      · next hz => exact agree_finf (hsign.resolve_left hz)
    · exact agree_roundRatio _ _ (hsign.imp_left fmant_of_isZero)

/-- The exact sum is negated with its operands, and its scale stays. -/
theorem exactSum_of_fkey {neg : Bool} {x y u v : F64} (hxy : fkey y = if neg then -fkey x else fkey x)
    (huv : fkey v = if neg then -fkey u else fkey u) :
    sumScale y v = sumScale x u ∧ exactSum y v = if neg then -exactSum x u else exactSum x u := by
  obtain ⟨_, _, _, _, hscale⟩ := parts_of_fkey hxy
  obtain ⟨_, _, _, _, hscale'⟩ := parts_of_fkey huv
  have hcommon : sumScale y v = sumScale x u := by rw [sumScale, hscale, hscale', sumScale]
  refine ⟨hcommon, ?_⟩
  rw [exactSum, exactSum, hcommon, hscale, hscale', fsigned_of_fkey hxy, fsigned_of_fkey huv]
  cases neg with
  | false => simp only [Bool.false_eq_true, if_false]
  | true => simp only [if_true, Int.neg_mul, Int.neg_add]

/-- A sum agrees as its operands do. -/
theorem AgreeUpToSign.add {neg : Bool} {x y u v : F64} (hxy : AgreeUpToSign neg x y) (huv : AgreeUpToSign neg u v) :
    AgreeUpToSign neg (fadd x u) (fadd y v) := by
  cases hxy with
  | nan hx hy => rw [fadd_of_isNaN (.inl hx), fadd_of_isNaN (.inl hy)]; exact agree_fnan _
  | number hx hy hkey =>
    cases huv with
    | nan hu hv => rw [fadd_of_isNaN (.inr hu), fadd_of_isNaN (.inr hv)]; exact agree_fnan _
    | number hu hv hkey' =>
      obtain ⟨hinf, _, hfin, _⟩ := parts_of_fkey hkey
      obtain ⟨hinf', _, hfin', _⟩ := parts_of_fkey hkey'
      rcases isNaN_or_isInf_or_isFinite x with h | h | h
      · rw [hx] at h; cases h
      · have hs := (fsign_of_fkey hkey).resolve_left (by simp [fisZero_of_isInf h])
        have hclash : (fisInf v && (fsign y != fsign v)) = (fisInf u && (fsign x != fsign u)) := by
          rw [hinf']
          cases hi : fisInf u with
          | false => rw [Bool.false_and, Bool.false_and]
          | true =>
            rw [hs, (fsign_of_fkey hkey').resolve_left (by simp [fisZero_of_isInf hi])]
            cases neg <;> simp
        rw [fadd_of_isInf_left h hu, fadd_of_isInf_left (hinf.trans h) hv, hclash]
        split
        · exact agree_fnan _
        · exact .number hx hy hkey
      rcases isNaN_or_isInf_or_isFinite u with h' | h' | h'
      · rw [hu] at h'; cases h'
      · rw [fadd_of_isInf_right h h', fadd_of_isInf_right (hfin.trans h) (hinf'.trans h')]
        exact .number hu hv hkey'
      · obtain ⟨hcommon, hsum⟩ := exactSum_of_fkey hkey hkey'
        rw [fadd_of_isFinite h h', fadd_of_isFinite (hfin.trans h) (hfin'.trans h'), hsum, hcommon]
        exact agree_roundSum _ _ _ _ _

/-- Subtraction is antisymmetric (41_distance.md R150(a)). -/
theorem agree_fsub_swap (a b : F64) : AgreeUpToSign true (fsub a b) (fsub b a) := by
  rw [fsub, fsub, fadd_comm b]
  exact (agree_fneg a).add (agree_fneg b).symm

theorem AgreeUpToSign.fadd_fsub {x y : F64} (h : AgreeUpToSign true x y) (c : F64) :
    AgreeUpToSign true (fadd x c) (fsub y c) :=
  h.add (agree_fneg c)

theorem eq_fzero_of_fkey {v : F64} (h : fkey v = 0) : v = fzero (fsign v) := by
  have habs := natAbs_fkey v
  apply BitVec.eq_of_toNat_eq
  rw [fzero, toNat_fpack (Nat.zero_le _), fsign_eq_decide]
  simp only [decide_eq_true_eq]
  split <;> omega

/-- Numbers that agree in sign too are the same value, or two zeros. -/
theorem eq_or_fzero_of_fkey {x y : F64} (h : fkey y = fkey x) : y = x ∨ x = fzero (fsign x) ∧ y = fzero (fsign y) := by
  by_cases h0 : fkey x = 0
  · exact .inr ⟨eq_fzero_of_fkey h0, eq_fzero_of_fkey (h.trans h0)⟩
  · have hs : fsign y = fsign x := by rw [fsign_of_fkey_ne_zero h0, fsign_of_fkey_ne_zero (h ▸ h0), h]
    have hm : y.toNat % 2 ^ 63 = x.toNat % 2 ^ 63 := magnitude_of_fkey (neg := false) h
    rw [fsign_eq_decide, fsign_eq_decide, decide_eq_decide] at hs
    exact .inl (BitVec.eq_of_toNat_eq (by omega))

/-- A number that agrees with its own negative is a zero (41_distance.md R150(b)). -/
theorem isNaN_or_fzero_of_agree_self {v : F64} (h : AgreeUpToSign true v v) :
    fisNaN v = true ∨ v = fzero (fsign v) := by
  cases h with
  | nan hx _ => exact .inl hx
  | number _ _ hkey => exact .inr (eq_fzero_of_fkey (by rw [if_pos rfl] at hkey; omega))

end Sys2Proof.Machine
end

section
/-! The hue difference and the angle functions, with the colours exchanged (41_distance.md R143 to R146, R150). -/

namespace Sys2Proof.Machine

theorem magnitude_fabs (v : F64) : (fabs v).toNat = v.toNat % 2 ^ 63 := by
  rw [fabs, BitVec.toNat_and]
  exact Nat.and_two_pow_sub_one_eq_mod v.toNat 63

theorem fisNaN_fabs (v : F64) : fisNaN (fabs v) = fisNaN v :=
  fisNaN_of_magnitude (by rw [magnitude_fabs, Nat.mod_mod])

theorem fkey_fabs (v : F64) : fkey (fabs v) = (fkey v).natAbs := by
  rw [natAbs_fkey, fkey, fsign_eq_decide, magnitude_fabs, if_neg (by simp; omega), Nat.mod_mod]

/-- Values that agree up to a sign have absolute values that compare alike. -/
theorem AgreeUpToSign.fgt_fabs {neg : Bool} {x y : F64} (h : AgreeUpToSign neg x y) (c : F64) :
    fgt (fabs y) c = fgt (fabs x) c := by
  cases h with
  | nan hx hy => simp [fgt, flt, fisNaN_fabs, hx, hy]
  | number hx hy hkey =>
    have hmag : (fkey y).natAbs = (fkey x).natAbs := by cases neg <;> simp [hkey]
    simp only [fgt, flt, fisNaN_fabs, hx, hy, fkey_fabs, hmag]

theorem fmean_comm (x y : F64) : fmean x y = fmean y x := by rw [fmean, fmean, fadd_comm]

theorem meanHue_comm (h1 h2 : F64) : meanHue h1 h2 = meanHue h2 h1 := by
  rw [meanHue, meanHue, (agree_fsub_swap h1 h2).fgt_fabs, fadd_comm h1]

/-- The difference of two values of one place in the order is a zero, where it is a number: it agrees with its own
negative. -/
theorem fkey_fsub_of_fkey_eq {a b : F64} (hn : fisNaN (fsub a b) = false) (h : fkey a = fkey b) :
    fkey (fsub a b) = 0 := by
  obtain ⟨ha, hb⟩ := fisNaN_of_fisNaN_fadd hn
  rw [fisNaN_fneg] at hb
  have hneg : AgreeUpToSign false (fneg b) (fneg a) :=
    .number (by rwa [fisNaN_fneg]) (by rwa [fisNaN_fneg]) (by simp [fkey_fneg, h])
  have hsame : AgreeUpToSign false (fsub a b) (fsub b a) :=
    (AgreeUpToSign.number ha hb (by simp [h])).add hneg
  have hkey := hsame.fkey_eq hn
  rw [(agree_fsub_swap a b).fkey_eq hn, if_pos rfl, if_neg Bool.false_ne_true] at hkey
  omega

/-- Of two values more than 180 apart, exactly one is at most the other. -/
theorem fle_swap_of_far {h1 h2 : F64} (h : fgt (fabs (fsub h2 h1)) (fnat 180) = true) : fle h1 h2 = !fle h2 h1 := by
  obtain ⟨_, hn, hfar⟩ := flt_iff.1 h
  rw [fisNaN_fabs] at hn
  rw [fkey_fabs] at hfar
  have h180 : 0 ≤ fkey (fnat 180) := by decide
  have hne : fkey h2 ≠ fkey h1 := fun heq => by
    have hzero := fkey_fsub_of_fkey_eq hn heq
    omega
  obtain ⟨hn2, hn1⟩ := fisNaN_of_fisNaN_fadd hn
  rw [fisNaN_fneg] at hn1
  simp only [fle, hn1, hn2, Bool.not_false, Bool.true_and, ← decide_not]
  exact decide_eq_decide.2 (by omega)

/-- The hue difference is antisymmetric: past 180 degrees exactly one of the two orders adds 360
(41_distance.md R146). -/
theorem agree_hueDelta_swap (h1 h2 : F64) : AgreeUpToSign true (hueDelta h1 h2) (hueDelta h2 h1) := by
  have hd := agree_fsub_swap h2 h1
  simp only [hueDelta, hd.fgt_fabs]
  split
  · next hfar =>
    rw [fle_swap_of_far hfar]
    cases fle h2 h1 <;> simp only [Bool.not_false, Bool.not_true, Bool.false_eq_true, if_true, if_false]
    · exact (hd.symm.fadd_fsub (fnat 360)).symm
    · exact hd.fadd_fsub (fnat 360)
  · exact hd

theorem feq_iff {a b : F64} : feq a b = true ↔ fisNaN a = false ∧ fisNaN b = false ∧ fkey a = fkey b := by
  simp [feq, and_assoc]

/-- Two numbers agree up to a negation exactly where the one compares equal to the negative of the other. -/
theorem feq_fneg_iff {x y : F64} : feq y (fneg x) = true ↔ fisNaN x = false ∧ AgreeUpToSign true x y := by
  rw [feq_iff, fisNaN_fneg, fkey_fneg]
  constructor
  · rintro ⟨hy, hx, hkey⟩
    exact ⟨hx, .number hx hy hkey⟩
  · rintro ⟨hx, h⟩
    exact ⟨h.fisNaN_eq.trans hx, hx, h.fkey_eq hx⟩

/-- The sine is odd of values that agree up to a negation (00_scope.md R12(e) as log 4 reads it). -/
theorem AgreeUpToSign.sin {E : Elem} (hE : ElemLaws E) {r n : F64} (hr : fisFinite r = true)
    (h : AgreeUpToSign true r n) : AgreeUpToSign true (E.sin r) (E.sin n) :=
  (feq_fneg_iff.1 (hE.sin_odd r n hr (feq_fneg_iff.2 ⟨fisNaN_of_isFinite hr, h⟩))).2

/-- The chroma-weighted hue difference is antisymmetric (41_distance.md R146, R150(a)). -/
theorem agree_chromaHueDelta_swap {E : Elem} (hE : ElemLaws E) (c1 c2 : F64) {h1 h2 : F64}
    (hr : fisFinite (fmul (fdiv (hueDelta h1 h2) (fnat 2)) deg2rad) = true) :
    AgreeUpToSign true (chromaHueDelta E c1 c2 (hueDelta h1 h2)) (chromaHueDelta E c2 c1 (hueDelta h2 h1)) := by
  rw [chromaHueDelta, chromaHueDelta, fmul_comm c2]
  exact (AgreeUpToSign.refl _).mul
    ((((agree_hueDelta_swap h1 h2).div (fnat 2)).mul (AgreeUpToSign.refl deg2rad)).sin hE hr)

end Sys2Proof.Machine
end

section
/-! The distance from its three weighted deltas, each known up to its sign (41_distance.md R149, R150). -/

namespace Sys2Proof.Machine

theorem fsign_fpack {neg : Bool} {bits : Nat} (h : bits ≤ 2047 * 2 ^ 52) : fsign (fpack neg bits) = neg := by
  rw [fsign_eq_decide, toNat_fpack h]
  cases neg with
  | false => exact decide_eq_false (by rw [if_neg Bool.false_ne_true]; omega)
  | true => exact decide_eq_true (Nat.le_add_left _ _)

theorem fsign_roundPack (neg : Bool) (m : Nat) (e : Int) : fsign (roundPack neg m e) = neg := by
  obtain ⟨bits, hle, _, heq⟩ := exists_roundPack_eq_fpack m e
  rw [heq, fsign_fpack hle]

/-- A NaN, or a number whose sign bit is clear. -/
def NotNegative (v : F64) : Prop := fisNaN v = true ∨ fsign v = false

theorem notNegative_fsquare (v : F64) : NotNegative (fsquare v) := by
  unfold fsquare fmul
  rw [bne_self_eq_false]
  split
  · exact .inl fisNaN_fnan
  split
  · split
    · exact .inl fisNaN_fnan
    · exact .inr (fsign_fpack (le_refl _))
  · exact .inr (fsign_roundPack _ _ _)

theorem fsigned_nonneg {v : F64} (h : fsign v = false) : 0 ≤ fsigned v := by simp [fsigned, h]

theorem fsign_roundSum {sum : Int} (h : 0 ≤ sum) (e : Int) : fsign (roundSum false sum e) = false := by
  unfold roundSum
  split
  · exact fsign_fpack (Nat.zero_le _)
  · rw [fsign_roundPack, decide_eq_false (not_lt.2 h)]

theorem notNegative_fadd {a b : F64} (ha : NotNegative a) (hb : NotNegative b) : NotNegative (fadd a b) := by
  have hnan (h : fisNaN a = true ∨ fisNaN b = true) : NotNegative (fadd a b) :=
    .inl (by rw [fadd_of_isNaN h, fisNaN_fnan])
  rcases isNaN_or_isInf_or_isFinite a with h | h | h
  · exact hnan (.inl h)
  · cases hnb : fisNaN b with
    | true => exact hnan (.inr hnb)
    | false =>
      rw [fadd_of_isInf_left h hnb]
      split
      · exact .inl fisNaN_fnan
      · exact ha
  rcases isNaN_or_isInf_or_isFinite b with h' | h' | h'
  · exact hnan (.inr h')
  · rw [fadd_of_isInf_right h h']
    exact hb
  · have hsa := ha.resolve_left (by simp [fisNaN_of_isFinite h])
    have hsb := hb.resolve_left (by simp [fisNaN_of_isFinite h'])
    have hsum : 0 ≤ exactSum a b :=
      add_nonneg (mul_nonneg (fsigned_nonneg hsa) (by positivity)) (mul_nonneg (fsigned_nonneg hsb) (by positivity))
    rw [fadd_of_isFinite h h', hsa, Bool.false_and]
    exact .inr (fsign_roundSum hsum _)

/-- A square does not depend on its operand's sign, nor on the bits of a NaN. -/
theorem AgreeUpToSign.fsquare_eq {neg : Bool} {x y : F64} (h : AgreeUpToSign neg x y) : fsquare y = fsquare x := by
  cases h with
  | nan hx hy => rw [fsquare, fsquare, fmul_of_isNaN (.inl hx), fmul_of_isNaN (.inl hy)]
  | number hx hy hkey =>
    obtain ⟨hinf, hzero, _, hmant, hscale⟩ := parts_of_fkey hkey
    simp only [fsquare, fmul, hx, hy, hinf, hzero, hmant, hscale, bne_self_eq_false]

/-- To what is not negative a zero of either sign adds the same. -/
theorem fadd_fzero {s : F64} (hs : NotNegative s) (z : Bool) : fadd s (fzero z) = fadd s (fzero false) := by
  rcases hs with hn | hs
  · rw [fadd_of_isNaN (.inl hn), fadd_of_isNaN (.inl hn)]
  cases z with
  | false => rfl
  | true =>
    rcases isNaN_or_isInf_or_isFinite s with h | h | h
    · rw [fadd_of_isNaN (.inl h), fadd_of_isNaN (.inl h)]
    · rw [fadd_of_isInf_left h (by decide), fadd_of_isInf_left h (by decide)]
      rfl
    · have hscale : fscale (fzero true) = fscale (fzero false) := by decide
      have hsigned : fsigned (fzero true) = fsigned (fzero false) := by decide
      rw [fadd_of_isFinite h (by decide), fadd_of_isFinite h (by decide), hs, Bool.false_and, Bool.false_and]
      simp only [exactSum, sumScale, hscale, hsigned]

/-- To what is not negative, values that agree add the same bits. -/
theorem AgreeUpToSign.fadd_eq {s x y : F64} (hs : NotNegative s) (h : AgreeUpToSign false x y) :
    fadd s x = fadd s y := by
  cases h with
  | nan hx hy => rw [fadd_of_isNaN (.inr hx), fadd_of_isNaN (.inr hy)]
  | number _ _ hkey =>
    rcases eq_or_fzero_of_fkey hkey with rfl | ⟨hx, hy⟩
    · rfl
    · rw [hx, hy, fadd_fzero hs, fadd_fzero hs (fsign y)]

/-- The distance keeps its bits where the three deltas are negated: the squares lose the sign, and in the cross term the
two signs cancel (41_distance.md R150(a)). -/
theorem combineDeltas_of_agree {tL tC tH tL' tC' tH' : F64} (rt : F64) (hL : AgreeUpToSign true tL tL')
    (hC : AgreeUpToSign true tC tC') (hH : AgreeUpToSign true tH tH') :
    combineDeltas tL tC tH rt = combineDeltas tL' tC' tH' rt := by
  have hcross : AgreeUpToSign false (fmul (fmul rt tC) tH) (fmul (fmul rt tC') tH') :=
    ((AgreeUpToSign.refl rt).mul hC).mul hH
  have hsum : NotNegative (fadd (fadd (fsquare tL) (fsquare tC)) (fsquare tH)) :=
    notNegative_fadd (notNegative_fadd (notNegative_fsquare _) (notNegative_fsquare _)) (notNegative_fsquare _)
  rw [combineDeltas, combineDeltas, hL.fsquare_eq, hC.fsquare_eq, hH.fsquare_eq, hcross.fadd_eq hsum]

/-- The square of a zero is 0.0. -/
theorem AgreeUpToSign.fsquare_of_self {v : F64} (h : AgreeUpToSign true v v) (hn : fisNaN (fsquare v) = false) :
    fsquare v = fnat 0 := by
  rcases isNaN_or_fzero_of_agree_self h with hv | hv
  · rw [fsquare, fmul_of_isNaN (.inl hv), fisNaN_fnan] at hn
    cases hn
  · rw [hv]
    cases fsign v <;> decide

/-- The distance is 0.0, or a NaN, where each delta agrees with its own negative (41_distance.md R150(b)). -/
theorem combineDeltas_of_agree_self {tL tC tH rt : F64} (hL : AgreeUpToSign true tL tL)
    (hC : AgreeUpToSign true tC tC) (hH : AgreeUpToSign true tH tH) (hn : fisNaN (combineDeltas tL tC tH rt) = false) :
    combineDeltas tL tC tH rt = fnat 0 := by
  unfold combineDeltas at hn ⊢
  obtain ⟨hsum, hcross⟩ := fisNaN_of_fisNaN_fadd (fisNaN_of_fisNaN_fsqrt hn)
  obtain ⟨hLC, hH'⟩ := fisNaN_of_fisNaN_fadd hsum
  obtain ⟨hL', hC'⟩ := fisNaN_of_fisNaN_fadd hLC
  have hself : AgreeUpToSign true (fmul (fmul rt tC) tH) (fmul (fmul rt tC) tH) :=
    (AgreeUpToSign.refl (fmul rt tC)).mul hH
  have hzero := (isNaN_or_fzero_of_agree_self hself).resolve_left (by simp [hcross])
  rw [hL.fsquare_of_self hL', hC.fsquare_of_self hC', hH.fsquare_of_self hH', hzero]
  cases fsign (fmul (fmul rt tC) tH) <;> decide

/-- Settles O34: exchanging the colours negates the three deltas and keeps every sum, mean and product of the two. -/
theorem colorDifferenceIsSymmetric : Obligations.ColorDifferenceIsSymmetric := by
  rintro E p q _ _ _ hE rfl rfl rfl hr
  refine ⟨?_, ?_⟩
  · dsimp only [labDifference]
    rw [fmean_comm (chroma q.a q.b), fmean_comm (chroma (fmul q.a _) q.b), meanHue_comm (hueDeg E q.b _),
      fmean_comm q.L]
    exact combineDeltas_of_agree _ ((agree_fsub_swap _ _).div _) ((agree_fsub_swap _ _).div _)
      ((agree_chromaHueDelta_swap hE _ _ hr).div _)
  · rintro rfl hn
    exact combineDeltas_of_agree_self ((agree_fsub_swap _ _).div _) ((agree_fsub_swap _ _).div _)
      ((agree_chromaHueDelta_swap hE _ _ hr).div _) hn

end Sys2Proof.Machine
end

section
/-! The diffusion of one pixel's residual (42_ditherer.md R185 to R189). -/

namespace Sys2Proof.Machine

/-- A target is dropped exactly where its column or its row lies outside the image (42_ditherer.md R188). -/
theorem tapTarget_eq_none_iff {x y : Nat} {t : KernelTap} :
    tapTarget x y t = none ↔ ¬(0 ≤ x + t.dx ∧ x + t.dx < 600 ∧ 0 ≤ y + t.dy ∧ y + t.dy < 448) := by
  simp [tapTarget]

/-- A target inside the image is the pixel at its offset (42_ditherer.md R187). -/
theorem eq_of_tapTarget {x y : Nat} {t : KernelTap} {q : Nat} (h : tapTarget x y t = some q) :
    (q : Int) = 600 * (y + t.dy) + (x + t.dx) := by
  simp only [tapTarget] at h
  split at h
  · next hr =>
    cases h
    simp only [pixelNumber, Config.W]
    omega
  · cases h

/-- The four targets of the kernel with their weights as decimals (42_ditherer.md R187). -/
theorem kernelTaps_eq :
    kernelTaps = [⟨1, 0, flit 4375 4⟩, ⟨-1, 1, flit 1875 4⟩, ⟨0, 1, flit 3125 4⟩, ⟨1, 1, flit 625 4⟩] := by
  decide +kernel

theorem mem_kernelTaps {t : KernelTap} :
    t ∈ kernelTaps ↔
      t = ⟨1, 0, flit 4375 4⟩ ∨ t = ⟨-1, 1, flit 1875 4⟩ ∨ t = ⟨0, 1, flit 3125 4⟩ ∨ t = ⟨1, 1, flit 625 4⟩ := by
  rw [kernelTaps_eq]
  simp only [List.mem_cons, List.not_mem_nil, or_false]

/-- A target that is dropped changes no cell (42_ditherer.md R188). -/
theorem diffuseTap_of_dropped {x y : Nat} {t : KernelTap} (h : tapTarget x y t = none) (err : LinearColor)
    (pix : Store F64) : diffuseTap x y err pix t = some pix := by
  rw [diffuseTap, h]

/-- Settles O36: the four targets one by one, each column and each row compared with the image's. -/
theorem outOfRangeDiffusionIsDropped : Obligations.OutOfRangeDiffusionIsDropped := by
  intro x y t hx hy ht
  refine ⟨?_, diffuseTap_of_dropped⟩
  rw [tapTarget_eq_none_iff]
  simp only [Config.W, Config.H] at hx hy
  rcases mem_kernelTaps.1 ht with rfl | rfl | rfl | rfl <;> dsimp only <;> omega

theorem diffuseTaps_cons_iff {x y : Nat} {err : LinearColor} {t : KernelTap} {rest : List KernelTap}
    {pix pix' : Store F64} :
    diffuseTaps x y err (t :: rest) pix = some pix' ↔
      ∃ pix1, diffuseTap x y err pix t = some pix1 ∧ diffuseTaps x y err rest pix1 = some pix' := by
  rw [diffuseTaps]
  cases diffuseTap x y err pix t <;> simp

/-- A colour after the diffusion of a residual with a weight (42_ditherer.md R187). -/
def diffused (v err : LinearColor) (w : F64) : LinearColor :=
  ⟨diffuseChannel v.r err.r w, diffuseChannel v.g err.g w, diffuseChannel v.b err.b w⟩

/-- What diffusion to one target leaves in a pixel: the diffused value in the target, every other pixel as it was
(42_ditherer.md R187, R188). -/
theorem readPixel_diffuseTap {x y : Nat} {err : LinearColor} {t : KernelTap} {pix pix' : Store F64}
    (h : diffuseTap x y err pix t = some pix') (q : Nat) :
    readPixel pix' q =
      if tapTarget x y t = some q then (readPixel pix q).map (diffused · err t.w) else readPixel pix q := by
  rcases diffuseTap_cases h with ⟨ht, rfl⟩ | ⟨p, v, ht, hv, rfl⟩
  · rw [ht, if_neg (by simp)]
  · rw [ht, readPixel_writePixel]
    by_cases hp : p = q
    · subst hp
      rw [if_pos rfl, if_pos rfl, hv]
      rfl
    · rw [if_neg hp, if_neg (by simpa using hp)]

theorem readPixel_diffuseTaps_other {x y : Nat} {err : LinearColor} {taps : List KernelTap} {pix pix' : Store F64}
    (h : diffuseTaps x y err taps pix = some pix') {q : Nat} (hq : ∀ t ∈ taps, tapTarget x y t ≠ some q) :
    readPixel pix' q = readPixel pix q := by
  induction taps generalizing pix with
  | nil => cases h; rfl
  | cons t rest ih =>
    obtain ⟨pix1, h1, h2⟩ := diffuseTaps_cons_iff.1 h
    rw [ih h2 fun u hu => hq u (List.mem_cons_of_mem _ hu), readPixel_diffuseTap h1, if_neg (hq t List.mem_cons_self)]

/-- Where no two targets of a list are one pixel, each gets the diffused value of what it held before all of them. -/
theorem readPixel_diffuseTaps_target {x y : Nat} {err : LinearColor} {taps : List KernelTap} {pix pix' : Store F64}
    (h : diffuseTaps x y err taps pix = some pix')
    (hd : taps.Pairwise fun t u => ∀ q, tapTarget x y t = some q → tapTarget x y u ≠ some q) {t : KernelTap}
    (ht : t ∈ taps) {q : Nat} (hq : tapTarget x y t = some q) :
    readPixel pix' q = (readPixel pix q).map (diffused · err t.w) := by
  induction taps generalizing pix with
  | nil => cases ht
  | cons u rest ih =>
    obtain ⟨pix1, h1, h2⟩ := diffuseTaps_cons_iff.1 h
    obtain ⟨hu, hrest⟩ := List.pairwise_cons.1 hd
    rcases List.mem_cons.1 ht with rfl | ht
    · rw [readPixel_diffuseTaps_other h2 fun w hw => hu w hw q hq, readPixel_diffuseTap h1, if_pos hq]
    · rw [ih h2 hrest ht, readPixel_diffuseTap h1, if_neg fun hc => hu t ht q hc hq]

/-- The four targets are four different pixels. -/
theorem kernelTaps_pairwise (x y : Nat) :
    kernelTaps.Pairwise fun t u => ∀ q, tapTarget x y t = some q → tapTarget x y u ≠ some q := by
  have hoff : kernelTaps.Pairwise fun t u => 600 * t.dy + t.dx ≠ 600 * u.dy + u.dx := by decide
  refine hoff.imp fun hne q ht hu => hne ?_
  have h1 := eq_of_tapTarget ht
  have h2 := eq_of_tapTarget hu
  omega

/-- No target is the pixel itself. -/
theorem tapTarget_ne_self {t : KernelTap} (ht : t ∈ kernelTaps) (x y : Nat) :
    tapTarget x y t ≠ some (pixelNumber x y) := by
  intro h
  have hoff : ∀ u ∈ kernelTaps, 600 * u.dy + u.dx ≠ 0 := by decide
  have hq := eq_of_tapTarget h
  have hne := hoff t ht
  simp only [pixelNumber, Config.W] at hq
  omega

/-- Settles O37: the kernel's targets are different pixels and none is the pixel itself, so each is rewritten once. -/
theorem diffusionUpdatesExactlyTheNeighbours : Obligations.DiffusionUpdatesExactlyTheNeighbours := by
  refine ⟨fun t => mem_kernelTaps, fun x y t q => eq_of_tapTarget, ?_⟩
  rintro P pal rot sc sc' p e x y rfl rfl h hp rfl
  obtain ⟨p', pix, hp', hd, hpk⟩ := scanPixel_cases h
  rw [hp] at hp'
  cases hp'
  have hpix : sc'.pix = pix := packIndex_pix hpk
  rw [hpix]
  have hother {q : Nat} := readPixel_diffuseTaps_other (q := q) hd
  refine ⟨fun q => hother, ?_, fun t ht q v hq hv => ?_, hpk⟩
  · rw [hother fun t ht => tapTarget_ne_self ht _ _, hp]
  · rw [readPixel_diffuseTaps_target hd (kernelTaps_pairwise _ _) ht hq, hv]
    rfl

end Sys2Proof.Machine
end

section
/-! The load and the indices a scan chooses (42_ditherer.md R183 to R185). -/

namespace Sys2Proof.Machine

/-- A load that completes has read the R, G and B byte of each of its pixels (42_ditherer.md R183). -/
theorem isSome_of_loadPixels {E : Elem} {src : Nat → Option Byte} {n p : Nat} {pix pix' : Store F64}
    (h : loadPixels E src n p pix = some pix') {q : Nat} (hp : p ≤ q) (hq : q < p + n) :
    (src (4 * q)).isSome ∧ (src (4 * q + 1)).isSome ∧ (src (4 * q + 2)).isSome := by
  induction n generalizing p pix with
  | zero => omega
  | succ n ih =>
    simp only [loadPixels] at h
    split at h
    · next r g b hr hg hb =>
      rcases Nat.eq_or_lt_of_le hp with rfl | hlt
      · simp [hr, hg, hb]
      · exact ih h hlt (by omega)
    · cases h

/-- A loaded pixel holds the linear values of its own three bytes (42_ditherer.md R183). -/
theorem readPixel_loadPixels {E : Elem} {src : Nat → Option Byte} {n p : Nat} {pix pix' : Store F64}
    (h : loadPixels E src n p pix = some pix') {q : Nat} (hp : p ≤ q) (hq : q < p + n) {r g b : Byte}
    (hr : src (4 * q) = some r) (hg : src (4 * q + 1) = some g) (hb : src (4 * q + 2) = some b) :
    readPixel pix' q = some ⟨loadChannel E r, loadChannel E g, loadChannel E b⟩ := by
  obtain ⟨pix1, h1, hin, _⟩ := loadPixels_spec E src n p pix fun _ => isSome_of_loadPixels h
  rw [h] at h1
  cases h1
  exact hin q hp hq r g b hr hg hb

/-- Two images hold one colour at every pixel (10_state.md R35). -/
def SamePixels (pix pix' : Store F64) : Prop := ∀ q, q < Config.numPixels → readPixel pix' q = readPixel pix q

/-- Loads from sources that agree in their R, G and B bytes give one image, whatever was in PIX (42_ditherer.md R183,
R192). -/
theorem samePixels_of_loadPixels {E : Elem} {src src' : Nat → Option Byte} {pix0 pix0' pix pix' : Store F64}
    (hsrc : ∀ p c, p < Config.numPixels → c < 3 → src' (4 * p + c) = src (4 * p + c))
    (h : loadPixels E src Config.numPixels 0 pix0 = some pix)
    (h' : loadPixels E src' Config.numPixels 0 pix0' = some pix') : SamePixels pix pix' := by
  intro q hq
  have hq' : q < 0 + Config.numPixels := by omega
  obtain ⟨hr, hg, hb⟩ := isSome_of_loadPixels h (Nat.zero_le q) hq'
  obtain ⟨r, hr⟩ := Option.isSome_iff_exists.1 hr
  obtain ⟨g, hg⟩ := Option.isSome_iff_exists.1 hg
  obtain ⟨b, hb⟩ := Option.isSome_iff_exists.1 hb
  rw [readPixel_loadPixels h (Nat.zero_le q) hq' hr hg hb,
    readPixel_loadPixels h' (Nat.zero_le q) hq' ((hsrc q 0 hq (by decide)).trans hr)
      ((hsrc q 1 hq (by decide)).trans hg) ((hsrc q 2 hq (by decide)).trans hb)]

theorem SamePixels.after_diffuseTaps {x y : Nat} {err : LinearColor} {taps : List KernelTap}
    {pix pix' pix1 pix1' : Store F64} (hs : SamePixels pix pix') (h : diffuseTaps x y err taps pix = some pix1)
    (h' : diffuseTaps x y err taps pix' = some pix1') : SamePixels pix1 pix1' := by
  induction taps generalizing pix pix' with
  | nil => cases h; cases h'; exact hs
  | cons t rest ih =>
    obtain ⟨p1, h1, h2⟩ := diffuseTaps_cons_iff.1 h
    obtain ⟨p1', h1', h2'⟩ := diffuseTaps_cons_iff.1 h'
    refine ih (fun q hq => ?_) h2 h2'
    rw [readPixel_diffuseTap h1, readPixel_diffuseTap h1', hs q hq]

/-- Two scans that stand at one pixel of one image; LATCH and the frame image may differ. -/
def SameImage (sc sc' : Scan) : Prop := sc'.cursor = sc.cursor ∧ SamePixels sc.pix sc'.pix

theorem SameImage.chosenIndex_eq {sc sc' : Scan} (h : SameImage sc sc') (P : Params) (pal : Palette) :
    chosenIndex P pal sc' = chosenIndex P pal sc := by
  obtain ⟨hc, hp⟩ := h
  rw [chosenIndex, chosenIndex, hc, hp _ (pixelNumber_cursor_lt sc.cursor)]

theorem scanPixels_succ_iff {P : Params} {pal : Palette} {rot : Bool} {n : Nat} {sc sc' : Scan} :
    scanPixels P pal rot (n + 1) sc = some sc' ↔
      ∃ sc1, scanPixel P pal rot sc = some sc1 ∧
        scanPixels P pal rot n { sc1 with cursor := cursorNext sc1.cursor } = some sc' := by
  rw [scanPixels]
  cases scanPixel P pal rot sc <;> simp

/-- One pixel of the scan leaves one image where it found one, in either orientation (42_ditherer.md R192, 43_packer.md
R220). -/
theorem SameImage.after_scanPixel {P : Params} {pal : Palette} {rot rot' : Bool} {sc sc' sc1 sc1' : Scan}
    (hs : SameImage sc sc') (h : scanPixel P pal rot sc = some sc1) (h' : scanPixel P pal rot' sc' = some sc1') :
    SameImage sc1 sc1' := by
  have hc : sc1'.cursor = sc1.cursor := by rw [scanPixel_cursor h, scanPixel_cursor h', hs.1]
  obtain ⟨p, pix, hp, hd, hpk⟩ := scanPixel_cases h
  obtain ⟨p', pix', hp', hd', hpk'⟩ := scanPixel_cases h'
  rw [hs.1, hs.2 _ (pixelNumber_cursor_lt sc.cursor), hp] at hp'
  cases hp'
  rw [hs.1] at hd'
  refine ⟨hc, ?_⟩
  rw [packIndex_pix hpk, packIndex_pix hpk']
  exact hs.2.after_diffuseTaps hd hd'

theorem SameImage.after_scanPixels {P : Params} {pal : Palette} {rot rot' : Bool} {n : Nat} {sc sc' sc1 sc1' : Scan}
    (hs : SameImage sc sc') (h : scanPixels P pal rot n sc = some sc1) (h' : scanPixels P pal rot' n sc' = some sc1') :
    SameImage sc1 sc1' := by
  induction n generalizing sc sc' with
  | zero => cases h; cases h'; exact hs
  | succ n ih =>
    obtain ⟨a, h1, h2⟩ := scanPixels_succ_iff.1 h
    obtain ⟨a', h1', h2'⟩ := scanPixels_succ_iff.1 h'
    obtain ⟨hc, hp⟩ := hs.after_scanPixel h1 h1'
    have hnext : SameImage { a with cursor := cursorNext a.cursor } { a' with cursor := cursorNext a'.cursor } :=
      ⟨congrArg cursorNext hc, hp⟩
    exact ih hnext h2 h2'

/-- The index that a scan chooses after `n` pixels. -/
def indexAfter (P : Params) (pal : Palette) (rot : Bool) (sc : Scan) (n : Nat) : Option (Fin 7) :=
  (scanPixels P pal rot n sc).bind (chosenIndex P pal)

/-- The indices of a scan that completes depend on the image alone (42_ditherer.md R192). -/
theorem SameImage.index_eq {P : Params} {pal : Palette} {rot rot' : Bool} {n : Nat} {sc sc' : Scan} {i j : Fin 7}
    (hs : SameImage sc sc') (hi : indexAfter P pal rot sc n = some i) (hj : indexAfter P pal rot' sc' n = some j) :
    j = i := by
  obtain ⟨a, ha, hi⟩ := Option.bind_eq_some_iff.1 hi
  obtain ⟨b, hb, hj⟩ := Option.bind_eq_some_iff.1 hj
  rw [(hs.after_scanPixels ha hb).chosenIndex_eq, hi] at hj
  exact (Option.some.inj hj).symm

/-- The scan that a CONVERT of this state starts after its load (42_ditherer.md R183, R184). -/
def loadedScan (s : State) (pix : Store F64) : Scan := { s.scan with cursor := cursorStart, pix := pix }

theorem indexAt_of_loadPixels {s : State} {pix : Store F64}
    (h : loadPixels params.elem (srcByte s) Config.numPixels 0 s.scan.pix = some pix) (n : Nat) :
    indexAt s n = indexAfter params s.palette (configRot180 s) (loadedScan s pix) n := by
  simp only [indexAt, h, indexAfter, loadedScan]
  cases scanPixels params s.palette (configRot180 s) n { s.scan with cursor := cursorStart, pix := pix } <;> rfl

end Sys2Proof.Machine
end

section
/-! The frame image of a whole scan, pair by pair (43_packer.md R211 to R214). -/

namespace Sys2Proof.Machine

/-- The position of a pair in the device's orientation, as rows and pairs of the body counted from its end (43_packer.md
R213). -/
theorem bytePos_true {xe y : Nat} (hx : xe < 600) (he : xe % 2 = 0) (hy : y < 448) :
    bytePos true xe y = 64 + 300 * (447 - y) + (299 - xe / 2) := by
  simp only [bytePos, orient, if_true, Config.W, Config.H, Config.HDR_LEN]
  omega

theorem bytePos_false {xe y : Nat} (he : xe % 2 = 0) : bytePos false xe y = 64 + 300 * y + xe / 2 := by
  simp only [bytePos, orient, Bool.false_eq_true, if_false, Config.W, Config.HDR_LEN]
  omega

/-- Two pairs have two positions (43_packer.md R214). -/
theorem bytePos_inj {rot : Bool} {xe y xe' y' : Nat} (hx : xe < 600) (he : xe % 2 = 0) (hy : y < 448) (hx' : xe' < 600)
    (he' : xe' % 2 = 0) (hy' : y' < 448) (h : bytePos rot xe y = bytePos rot xe' y') : xe = xe' ∧ y = y' := by
  cases rot
  · rw [bytePos_false he, bytePos_false he'] at h
    omega
  · rw [bytePos_true hx he hy, bytePos_true hx' he' hy'] at h
    omega

/-- Every byte of the body is the position of a pair (43_packer.md R214). -/
theorem exists_bytePos_eq (rot : Bool) {k : Nat} (hlo : Config.HDR_LEN ≤ k) (hhi : k < Config.FRAME_LEN) :
    ∃ xe y, xe < 600 ∧ xe % 2 = 0 ∧ y < 448 ∧ bytePos rot xe y = k := by
  simp only [Config.HDR_LEN, Config.FRAME_LEN] at hlo hhi
  cases rot
  · refine ⟨2 * ((k - 64) % 300), (k - 64) / 300, by omega, by omega, by omega, ?_⟩
    rw [bytePos_false (by omega)]
    omega
  · refine ⟨598 - 2 * ((k - 64) % 300), 447 - (k - 64) / 300, by omega, by omega, by omega, ?_⟩
    rw [bytePos_true (by omega) (by omega) (by omega)]
    omega

/-- A pair's position lies behind the header (43_packer.md R213). -/
theorem hdrLen_le_bytePos (rot : Bool) (x y : Nat) : Config.HDR_LEN ≤ bytePos rot x y := Nat.le_add_right _ _

theorem toNat_indexNibble (i : Fin 7) : (indexNibble i).toNat = i.val := by
  have hi := i.isLt
  rw [indexNibble, BitVec.toNat_ofNat, Nat.mod_eq_of_lt (by omega)]

/-- The latched index is the low nibble of the packed byte (43_packer.md R211). -/
theorem packedByte_low (i : Fin 7) (low : BitVec 4) : (packedByte i low).extractLsb' 0 4 = low :=
  BitVec.extractLsb'_append_eq_right

/-- The odd member's index is the high nibble of the packed byte (43_packer.md R211). -/
theorem packedByte_high (i : Fin 7) (low : BitVec 4) : (packedByte i low).extractLsb' 4 4 = indexNibble i :=
  BitVec.extractLsb'_append_eq_left

/-- The cursor's pixel number after one pixel: one more, up to the last pixel (10_state.md R38). -/
theorem pixelNumber_cursorNext_eq_min (c : Cursor) :
    pixelNumber (cursorNext c).x.val (cursorNext c).y.val =
      min (pixelNumber c.x.val c.y.val + 1) (Config.numPixels - 1) := by
  have hlt := pixelNumber_cursor_lt (cursorNext c)
  rcases cursorNext_cases c with ⟨h1, h2⟩ | ⟨h1, h2, h3⟩ | ⟨h1, h2, h3⟩
  · simp only [pixelNumber, Config.W, Config.numPixels, h1, h2] at hlt ⊢
    omega
  · simp only [pixelNumber, Config.W, Config.numPixels, h1, h2, h3] at hlt ⊢
    omega
  · simp only [pixelNumber, Config.W, Config.numPixels, h1, h2, h3]
    omega

/-- The cursor's pixel number after `n` pixels: `n` more, up to the last pixel (42_ditherer.md R184). -/
theorem scanPixels_cursor_eq_min {P : Params} {pal : Palette} {rot : Bool} {n : Nat} {sc sc' : Scan}
    (h : scanPixels P pal rot n sc = some sc') :
    pixelNumber sc'.cursor.x.val sc'.cursor.y.val =
      min (pixelNumber sc.cursor.x.val sc.cursor.y.val + n) (Config.numPixels - 1) := by
  induction n generalizing sc with
  | zero =>
    cases h
    have hlt := pixelNumber_cursor_lt sc'.cursor
    omega
  | succ n ih =>
    obtain ⟨sc1, h1, h2⟩ := scanPixels_succ_iff.1 h
    rw [ih h2, scanPixel_cursor h1, pixelNumber_cursorNext_eq_min]
    omega

/-- A scan of as many pixels as the image has ends at the last one (10_state.md R38). -/
theorem scanPixels_cursor_last {P : Params} {pal : Palette} {rot : Bool} {sc sc' : Scan}
    (h : scanPixels P pal rot Config.numPixels sc = some sc') :
    sc'.cursor.x.val = 599 ∧ sc'.cursor.y.val = 447 := by
  have hn := scanPixels_cursor_eq_min h
  have hx := sc'.cursor.x.isLt
  simp only [pixelNumber, Config.W, Config.numPixels] at hn hx
  omega

/-- One pixel of the scan packs the index chosen at it: latched at an even column, the byte of the pair written at an
odd one (42_ditherer.md R185, R189; 43_packer.md R211). -/
theorem scanPixel_packs {P : Params} {pal : Palette} {rot : Bool} {sc sc' : Scan}
    (h : scanPixel P pal rot sc = some sc') :
    ∃ i, chosenIndex P pal sc = some i ∧
      ((sc.cursor.x.val % 2 = 0 ∧ sc'.latch.value = indexNibble i ∧ sc'.fb = sc.fb) ∨
        (sc.cursor.x.val % 2 = 1 ∧
          sc'.fb = storeWrite sc.fb (bytePos rot (sc.cursor.x.val - 1) sc.cursor.y.val)
            (packedByte i sc.latch.value))) := by
  obtain ⟨p, pix, hp, _, hpk⟩ := scanPixel_cases h
  refine ⟨(nearest P pal p).1, by rw [chosenIndex, hp], ?_⟩
  rcases packIndex_cases hpk with ⟨h0, rfl⟩ | ⟨h1, _, rfl⟩
  · exact .inl ⟨h0, rfl, rfl⟩
  · exact .inr ⟨h1, rfl⟩

/-- What every write at a pair's position keeps, from the cursor's pixel on, a scan keeps of the frame image. -/
theorem scanPixels_fb_keeps {P : Params} {pal : Palette} {rot : Bool} {I : Store Byte → Prop} {n : Nat} {sc sc' : Scan}
    (h : scanPixels P pal rot n sc = some sc')
    (hI : ∀ fb x y b, x < 600 → x % 2 = 1 → y < 448 → pixelNumber sc.cursor.x.val sc.cursor.y.val ≤ pixelNumber x y →
      I fb → I (storeWrite fb (bytePos rot (x - 1) y) b)) (h0 : I sc.fb) : I sc'.fb := by
  induction n generalizing sc with
  | zero => cases h; exact h0
  | succ n ih =>
    obtain ⟨sc1, h1, h2⟩ := scanPixels_succ_iff.1 h
    have hnext : pixelNumber sc.cursor.x.val sc.cursor.y.val ≤
        pixelNumber (cursorNext sc1.cursor).x.val (cursorNext sc1.cursor).y.val := by
      have hlt := pixelNumber_cursor_lt sc.cursor
      rw [scanPixel_cursor h1, pixelNumber_cursorNext_eq_min]
      omega
    refine ih h2 (fun fb x y b hx ho hy hle => hI fb x y b hx ho hy (Nat.le_trans hnext hle)) ?_
    obtain ⟨i, _, ⟨_, _, hfb⟩ | ⟨ho, hfb⟩⟩ := scanPixel_packs h1
    · exact hfb ▸ h0
    · exact hfb ▸ hI _ _ _ _ sc.cursor.x.isLt ho sc.cursor.y.isLt (Nat.le_refl _) h0

theorem storeWf_fb_scanPixels {P : Params} {pal : Palette} {rot : Bool} {n : Nat} {sc sc' : Scan}
    (h : scanPixels P pal rot n sc = some sc') (hw : storeWf sc.fb = true) : storeWf sc'.fb = true :=
  scanPixels_fb_keeps (I := fun fb => storeWf fb = true) h (fun _ _ _ _ _ _ _ _ hfb => storeWf_storeWrite _ _ _ hfb) hw

theorem listsOnly_fb_scanPixels {P : Params} {pal : Palette} {rot : Bool} {n : Nat} {sc sc' : Scan}
    (h : scanPixels P pal rot n sc = some sc') (hf : ListsOnly isFrameByte sc.fb) : ListsOnly isFrameByte sc'.fb :=
  scanPixels_fb_keeps h (fun _ _ _ _ hx _ hy _ hfb =>
    listsOnly_storeWrite hfb (bytePos_lt (Nat.lt_of_le_of_lt (Nat.sub_le _ _) hx) hy) _) hf

/-- The byte of a pair that the cursor has passed stays (43_packer.md R214). -/
theorem scanPixels_fb_passed {P : Params} {pal : Palette} {rot : Bool} {n xe y : Nat} {b : Byte} {sc sc' : Scan}
    (h : scanPixels P pal rot n sc = some sc') (hx : xe < 600) (he : xe % 2 = 0) (hy : y < 448)
    (hpassed : pixelNumber (xe + 1) y < pixelNumber sc.cursor.x.val sc.cursor.y.val)
    (hb : storeRead sc.fb (bytePos rot xe y) = some b) : storeRead sc'.fb (bytePos rot xe y) = some b := by
  refine scanPixels_fb_keeps (I := fun fb => storeRead fb (bytePos rot xe y) = some b) h ?_ hb
  intro fb x' y' b' hx' ho' hy' hle hfb
  rw [storeRead_storeWrite_other _ _ fun hpos => ?_]
  · exact hfb
  · obtain ⟨hxx, hyy⟩ := bytePos_inj (by omega) (by omega) hy' hx he hy hpos
    simp only [pixelNumber, Config.W] at hpassed hle
    omega

/-- The scan of a pair packs the indices chosen at its two pixels into the byte at its position (43_packer.md R211). -/
theorem scanPixels_pair {P : Params} {pal : Palette} {rot : Bool} {sc sc1 sc2 : Scan} {xe y : Nat}
    (he : xe % 2 = 0) (hcx : sc.cursor.x.val = xe) (hcy : sc.cursor.y.val = y) (h1 : scanPixel P pal rot sc = some sc1)
    (h2 : scanPixel P pal rot { sc1 with cursor := cursorNext sc1.cursor } = some sc2) :
    ∃ i j, chosenIndex P pal sc = some i ∧
      chosenIndex P pal { sc1 with cursor := cursorNext sc1.cursor } = some j ∧
      storeRead sc2.fb (bytePos rot xe y) = some (packedByte j (indexNibble i)) := by
  have hnext : (cursorNext sc1.cursor).x.val = xe + 1 ∧ (cursorNext sc1.cursor).y.val = y := by
    rw [scanPixel_cursor h1]
    rcases cursorNext_cases sc.cursor with ⟨hx', hy'⟩ | ⟨hx', _⟩ | ⟨hx', _⟩
    · exact ⟨hcx ▸ hx', hcy ▸ congrArg Fin.val hy'⟩
    · omega
    · omega
  obtain ⟨i, hi, ⟨_, hl, _⟩ | ⟨ho, _⟩⟩ := scanPixel_packs h1
  · obtain ⟨j, hj, ⟨ho, _⟩ | ⟨_, hfb⟩⟩ := scanPixel_packs h2
    · simp only [hnext.1] at ho
      omega
    · refine ⟨i, j, hi, hj, ?_⟩
      simp only [hnext, hl] at hfb
      rw [hfb, Nat.add_sub_cancel, storeRead_storeWrite_same]
  · omega

/-- After a scan of a whole image the byte at a pair's position holds the indices chosen at its two pixels (43_packer.md
R211, R214). -/
theorem scanPixels_packs_pair {P : Params} {pal : Palette} {rot : Bool} {sc sc' : Scan}
    (h : scanPixels P pal rot Config.numPixels sc = some sc') (hc : sc.cursor = cursorStart) {xe y : Nat}
    (hx : xe < 600) (he : xe % 2 = 0) (hy : y < 448) :
    ∃ i j, indexAfter P pal rot sc (pixelNumber xe y) = some i ∧
      indexAfter P pal rot sc (pixelNumber (xe + 1) y) = some j ∧
      storeRead sc'.fb (bytePos rot xe y) = some (packedByte j (indexNibble i)) := by
  obtain ⟨r, hr⟩ : ∃ r, Config.numPixels = pixelNumber xe y + (r + 1 + 1) := by
    refine ⟨Config.numPixels - pixelNumber xe y - 2, ?_⟩
    simp only [pixelNumber, Config.W, Config.numPixels]
    omega
  rw [hr, scanPixels_add] at h
  obtain ⟨sca, ha, h⟩ := Option.bind_eq_some_iff.1 h
  obtain ⟨sc1, h1, h⟩ := scanPixels_succ_iff.1 h
  obtain ⟨sc2, h2, h⟩ := scanPixels_succ_iff.1 h
  have hcur : sca.cursor.x.val = xe ∧ sca.cursor.y.val = y := by
    have hn := scanPixels_cursor_eq_min ha
    refine pixelNumber_inj sca.cursor.x.isLt hx (hn.trans ?_)
    have h0 : pixelNumber cursorStart.x.val cursorStart.y.val = 0 := rfl
    rw [hc, h0, hr]
    omega
  obtain ⟨i, j, hi, hj, hb⟩ := scanPixels_pair he hcur.1 hcur.2 h1 h2
  have hodd : pixelNumber (xe + 1) y = pixelNumber xe y + 1 := by simp only [pixelNumber]; omega
  have hstep : scanPixels P pal rot (pixelNumber (xe + 1) y) sc =
      some { sc1 with cursor := cursorNext sc1.cursor } := by
    rw [hodd, scanPixels_add, ha]
    exact scanPixels_succ_iff.2 ⟨sc1, h1, rfl⟩
  refine ⟨i, j, by rw [indexAfter, ha]; exact hi, by rw [indexAfter, hstep]; exact hj, ?_⟩
  cases r with
  | zero => cases h; exact hb
  | succ r =>
    refine scanPixels_fb_passed h hx he hy ?_ hb
    rw [scanPixel_cursor h2, pixelNumber_cursorNext_eq_min, pixelNumber_cursorNext_eq_min, scanPixel_cursor h1, hcur.1,
      hcur.2, hodd]
    generalize Config.numPixels = total at hr
    omega

end Sys2Proof.Machine
end

section
/-! What CONVERT publishes at its completion step (42_ditherer.md R190 to R192; 43_packer.md R216 to R218). -/

namespace Sys2Proof.Machine

/-- At its last engine step CONVERT is `completeConvert` (44_control.md R248). -/
theorem exec_convert_of_completing {s : State} (hc : Completing .convert s) : exec .convert s = completeConvert s := by
  obtain ⟨ht, hp, ha, hl⟩ := hc
  show execConvert s = completeConvert s
  simp only [execConvert, ht, engineStep, hp, ha, and_self, if_true, if_neg (Nat.not_lt.2 hl)]

/-- The bytes a CONVERT reads, counted by pixel and channel (10_state.md R33). -/
theorem sourceWritten_iff {s : State} :
    SourceWritten s ↔ ∀ p c, p < Config.numPixels → c < 3 → (srcByte s (4 * p + c)).isSome := by
  constructor
  · intro hs p c hp hc
    obtain ⟨hr, hg, hb⟩ := hs p hp
    match c, hc with
    | 0, _ => exact hr
    | 1, _ => exact hg
    | 2, _ => exact hb
  · exact fun h p hp => ⟨h p 0 hp (by decide), h p 1 hp (by decide), h p 2 hp (by decide)⟩

theorem SourceWritten.congr {s s' : State} (hs : SourceWritten s)
    (hsrc : ∀ p c, p < Config.numPixels → c < 3 → srcByte s' (4 * p + c) = srcByte s (4 * p + c)) :
    SourceWritten s' :=
  sourceWritten_iff.2 fun p c hp hc => hsrc p c hp hc ▸ sourceWritten_iff.1 hs p c hp hc

theorem convertScan_eq_some_iff {s : State} {sc : Scan} :
    convertScan params s.palette (configRot180 s) (srcByte s) s.scan = some sc ↔
      ∃ pix, loadPixels params.elem (srcByte s) Config.numPixels 0 s.scan.pix = some pix ∧
        scanPixels params s.palette (configRot180 s) Config.numPixels (loadedScan s pix) = some sc := by
  simp only [convertScan, loadedScan]
  cases loadPixels params.elem (srcByte s) Config.numPixels 0 s.scan.pix <;> simp

/-- A completing CONVERT publishes its scan, if it has one (42_ditherer.md R190). -/
theorem exec_convert_next_iff {s t : State} (hc : Completing .convert s) :
    exec .convert s = .next t ↔
      ∃ sc, convertScan params s.palette (configRot180 s) (srcByte s) s.scan = some sc ∧ t = finishConvert sc s := by
  rw [exec_convert_of_completing hc, completeConvert]
  cases convertScan params s.palette (configRot180 s) (srcByte s) s.scan <;> simp [eq_comm]

/-- With every R, G and B byte of SRC written a completing CONVERT publishes (42_ditherer.md R183, R190). -/
theorem exists_exec_convert_next {s : State} (hc : Completing .convert s) (hs : SourceWritten s) :
    ∃ t, exec .convert s = .next t := by
  obtain ⟨sc, hsc⟩ := convertScan_total params s.palette (configRot180 s) (srcByte s) s.scan hs
  exact ⟨_, (exec_convert_next_iff hc).2 ⟨sc, hsc, rfl⟩⟩

/-- A CONVERT that publishes has read the R, G and B byte of every pixel of SRC (42_ditherer.md R183). -/
theorem sourceWritten_of_exec_convert {s t : State} (hc : Completing .convert s) (h : exec .convert s = .next t) :
    SourceWritten s := by
  obtain ⟨sc, hsc, _⟩ := (exec_convert_next_iff hc).1 h
  obtain ⟨pix, hl, _⟩ := convertScan_eq_some_iff.1 hsc
  exact fun p hp => isSome_of_loadPixels hl (Nat.zero_le p) (by omega)

/-- A completing CONVERT publishes a frame or ends in READ_UNWRITTEN (42_ditherer.md R183). -/
theorem exec_convert_next_or_fault {s : State} (hc : Completing .convert s) :
    (∃ t, exec .convert s = .next t) ∨ exec .convert s = .fault .readUnwritten := by
  rw [exec_convert_of_completing hc, completeConvert]
  cases convertScan params s.palette (configRot180 s) (srcByte s) s.scan <;> simp

/-- Settles O24: a CONVERT that published would have read the byte. -/
theorem unwrittenSourceByteFaults : Obligations.UnwrittenSourceByteFaults := by
  intro s p c hc hp hlt hbyte
  rcases exec_convert_next_or_fault hc with ⟨t, h⟩ | h
  · have hread := sourceWritten_iff.1 (sourceWritten_of_exec_convert hc h) p c hp hlt
    rw [hbyte] at hread
    cases hread
  · exact h

/-- The header stands in the first 64 bytes of FRAME (43_packer.md R216, R218). -/
theorem storeRead_finishConvert_header {sc : Scan} {s : State} (hw : storeWf sc.fb = true) {k : Nat}
    (hk : k < Config.HDR_LEN) :
    storeRead (finishConvert sc s).mem (Config.FRAME_BASE + k) = (headerBytes s.timestamp)[k]? := by
  have hlen : k < (headerBytes s.timestamp).length := by rwa [length_headerBytes]
  rw [finishConvert_mem, storeRead_storeCopy _ _ _ _ (storeWf_storeWriteAll _ _ _ hw), storeRead_storeWriteAll,
    if_pos ⟨Nat.zero_le k, by omega⟩, Nat.sub_zero, List.getElem?_eq_getElem hlen]

/-- Behind the header FRAME holds the bytes of the frame image (42_ditherer.md R190). -/
theorem storeRead_finishConvert_body {sc : Scan} {s : State} (hw : storeWf sc.fb = true) {k : Nat} {b : Byte}
    (hk : Config.HDR_LEN ≤ k) (hb : storeRead sc.fb k = some b) :
    storeRead (finishConvert sc s).mem (Config.FRAME_BASE + k) = some b := by
  rw [finishConvert_mem, storeRead_storeCopy _ _ _ _ (storeWf_storeWriteAll _ _ _ hw), storeRead_storeWriteAll,
    length_headerBytes, if_neg (by omega), hb]

/-- The header of a published frame (43_packer.md R216, R218). -/
theorem storeRead_header_of_convert {s t : State} (hc : Completing .convert s) (hw : storeWf s.scan.fb = true)
    (h : exec .convert s = .next t) {k : Nat} (hk : k < Config.HDR_LEN) :
    storeRead t.mem (Config.FRAME_BASE + k) = (headerBytes s.timestamp)[k]? := by
  obtain ⟨sc, hsc, rfl⟩ := (exec_convert_next_iff hc).1 h
  obtain ⟨pix, _, hscan⟩ := convertScan_eq_some_iff.1 hsc
  exact storeRead_finishConvert_header (storeWf_fb_scanPixels hscan hw) hk

/-- The body of a published frame: at the position of each pair the two indices chosen at its pixels (42_ditherer.md
R189, R190; 43_packer.md R211). -/
theorem storeRead_pair_of_convert {s t : State} (hc : Completing .convert s) (hw : storeWf s.scan.fb = true)
    (h : exec .convert s = .next t) {xe y : Nat} (hx : xe < 600) (he : xe % 2 = 0) (hy : y < 448) :
    ∃ i j, indexAt s (pixelNumber xe y) = some i ∧ indexAt s (pixelNumber (xe + 1) y) = some j ∧
      storeRead t.mem (Config.FRAME_BASE + bytePos (configRot180 s) xe y) = some (packedByte j (indexNibble i)) := by
  obtain ⟨sc, hsc, rfl⟩ := (exec_convert_next_iff hc).1 h
  obtain ⟨pix, hl, hscan⟩ := convertScan_eq_some_iff.1 hsc
  obtain ⟨i, j, hi, hj, hb⟩ := scanPixels_packs_pair hscan rfl hx he hy
  refine ⟨i, j, (indexAt_of_loadPixels hl _).trans hi, (indexAt_of_loadPixels hl _).trans hj, ?_⟩
  exact storeRead_finishConvert_body (storeWf_fb_scanPixels hscan hw) (hdrLen_le_bytePos _ _ _) hb

/-- Every byte of a published frame is written (43_packer.md R218). -/
theorem isSome_frame_of_convert {s t : State} (hc : Completing .convert s) (hw : storeWf s.scan.fb = true)
    (h : exec .convert s = .next t) {k : Nat} (hk : k < Config.FRAME_LEN) :
    (storeRead t.mem (Config.FRAME_BASE + k)).isSome := by
  rcases Nat.lt_or_ge k Config.HDR_LEN with hlt | hge
  · rw [storeRead_header_of_convert hc hw h hlt, List.getElem?_eq_getElem (by rwa [length_headerBytes])]
    rfl
  · obtain ⟨xe, y, hx, he, hy, rfl⟩ := exists_bytePos_eq (configRot180 s) hge hk
    obtain ⟨i, j, _, _, hb⟩ := storeRead_pair_of_convert hc hw h hx he hy
    rw [hb]
    rfl

/-- The image that a CONVERT scans (42_ditherer.md R183). -/
theorem exists_loadPixels {s : State} (hs : SourceWritten s) :
    ∃ pix, loadPixels params.elem (srcByte s) Config.numPixels 0 s.scan.pix = some pix := by
  obtain ⟨pix, hl, _⟩ := loadPixels_spec params.elem (srcByte s) Config.numPixels 0 s.scan.pix
    fun p _ hp => hs p (by omega)
  exact ⟨pix, hl⟩

/-- The two nibbles of a pair's byte are its indices, the even member's below (43_packer.md R211). -/
theorem nibbles_of_convert {s t : State} (hc : Completing .convert s) (hw : storeWf s.scan.fb = true)
    (h : exec .convert s = .next t) {xe y : Nat} (hx : xe < 600) (he : xe % 2 = 0) (hy : y < 448) :
    ∃ (i j : Fin 7) (b : Byte), indexAt s (pixelNumber xe y) = some i ∧ indexAt s (pixelNumber (xe + 1) y) = some j ∧
      storeRead t.mem (Config.FRAME_BASE + bytePos (configRot180 s) xe y) = some b ∧
      (b.extractLsb' 0 4).toNat = i.val ∧ (b.extractLsb' 4 4).toNat = j.val := by
  obtain ⟨i, j, hi, hj, hb⟩ := storeRead_pair_of_convert hc hw h hx he hy
  refine ⟨i, j, _, hi, hj, hb, ?_, ?_⟩
  · rw [packedByte_low, toNat_indexNibble]
  · rw [packedByte_high, toNat_indexNibble]

/-- The load of SRC, in the offsets of the SRC window (42_ditherer.md R183, 20_memory.md R62). -/
theorem readPixel_of_sourceBytes {s : State} {pix : Store F64} {p : Nat} {r g b : Byte}
    (hl : loadPixels params.elem (srcByte s) Config.numPixels 0 s.scan.pix = some pix) (hp : p < 0 + Config.numPixels)
    (hr : storeRead s.mem (0x100000 + 4 * p) = some r) (hg : storeRead s.mem (0x100000 + 4 * p + 1) = some g)
    (hb : storeRead s.mem (0x100000 + 4 * p + 2) = some b) :
    readPixel pix p =
      some ⟨gammaLinear elemFns (unit8 r), gammaLinear elemFns (unit8 g), gammaLinear elemFns (unit8 b)⟩ := by
  rw [Nat.add_assoc] at hg hb
  exact readPixel_loadPixels hl (Nat.zero_le p) hp hr hg hb

/-- Settles O22: the load pixel by pixel, the publication, and the frame as header and pairs. -/
theorem convertPublishesAWholeFrame : Obligations.ConvertPublishesAWholeFrame := by
  intro s hc hs hw
  obtain ⟨t, h⟩ := exists_exec_convert_next hc hs
  obtain ⟨sc, hsc, ht⟩ := (exec_convert_next_iff hc).1 h
  obtain ⟨pix, hl, hscan⟩ := convertScan_eq_some_iff.1 hsc
  have hlast := scanPixels_cursor_last hscan
  have hcount : Config.numPixels = 268800 := rfl
  refine ⟨⟨pix, hl, fun p r g b hp => readPixel_of_sourceBytes hl (by omega)⟩, t, h, ?_, ?_, ?_,
    fun k => isSome_frame_of_convert hc hw h, fun k => storeRead_header_of_convert hc hw h,
    fun xe y => nibbles_of_convert hc hw h, ?_⟩
  all_goals subst ht
  · exact finishConvert_status sc s
  · exact finishConvert_phase sc s
  · exact finishConvert_latLeft sc s
  · exact hlast

/-- Settles O25: the white-image property speaks of the scan of a white PIX, and SRC's load gives that image. -/
theorem whiteImageGivesAllOnes : Obligations.WhiteImageGivesAllOnes := by
  intro s hc hw ⟨white, hwhite, hkept⟩ _ hsrc
  have hs : SourceWritten s := sourceWritten_iff.2 fun p c hp hlt => hsrc p c hp hlt ▸ rfl
  obtain ⟨t, h⟩ := exists_exec_convert_next hc hs
  obtain ⟨pix, hl⟩ := exists_loadPixels hs
  have himage : SameImage (scanStart white) (loadedScan s pix) :=
    ⟨rfl, samePixels_of_loadPixels hsrc hwhite hl⟩
  have hone : ∀ {n : Nat} {i : Fin 7}, n < Config.numPixels → indexAt s n = some i → i = 1 := by
    intro n i hn hi
    obtain ⟨sc, hscan, hch⟩ := hkept n hn
    rw [indexAt_of_loadPixels hl] at hi
    exact himage.index_eq (Option.bind_eq_some_iff.2 ⟨sc, hscan, hch⟩) hi
  refine ⟨t, h, fun k hlo hhi => ?_⟩
  obtain ⟨xe, y, hx, he, hy, rfl⟩ := exists_bytePos_eq (configRot180 s) hlo hhi
  obtain ⟨i, j, hi, hj, hb⟩ := storeRead_pair_of_convert hc hw h hx he hy
  have hlt : pixelNumber (xe + 1) y < Config.numPixels := by
    simp only [pixelNumber, Config.W, Config.numPixels]
    omega
  rw [hb, hone (Nat.lt_of_le_of_lt (Nat.add_le_add_left (Nat.le_succ xe) _) hlt) hi, hone hlt hj]
  rfl

/-- TIMESTAMP reaches bytes 4 to 11 of the header alone (43_packer.md R216). -/
theorem headerBytes_congr {ts ts' : Word} {k : Nat} (h : ts' = ts ∨ k < 4 ∨ 12 ≤ k) :
    (headerBytes ts')[k]? = (headerBytes ts)[k]? := by
  rcases h with rfl | h
  · rfl
  · simp only [headerBytes, List.getElem?_append, List.length_append, length_bytesOf, Config.TS_LEN]
    rcases h with h | h
    · rw [if_pos (by omega), if_pos h, if_pos (by omega), if_pos h]
    · rw [if_neg (by omega), if_neg (by omega)]

/-- Two CONVERTs that load one image choose one index at each pixel (42_ditherer.md R192). -/
theorem indexAt_eq_of_same_source {s s' : State} {n : Nat} {i j : Fin 7} (hs : SourceWritten s) (hs' : SourceWritten s')
    (hpal : s'.palette = s.palette)
    (hsrc : ∀ p c, p < Config.numPixels → c < 3 → srcByte s' (4 * p + c) = srcByte s (4 * p + c))
    (hi : indexAt s n = some i) (hj : indexAt s' n = some j) : j = i := by
  obtain ⟨pix, hl⟩ := exists_loadPixels hs
  obtain ⟨pix', hl'⟩ := exists_loadPixels hs'
  have himage : SameImage (loadedScan s pix) (loadedScan s' pix') := ⟨rfl, samePixels_of_loadPixels hsrc hl hl'⟩
  rw [indexAt_of_loadPixels hl] at hi
  rw [indexAt_of_loadPixels hl', hpal] at hj
  exact himage.index_eq hi hj

/-- Settles O26: the body holds the indices, which the image and the palette fix, and the header TIMESTAMP at bytes 4 to
11. -/
theorem timestampReachesOnlyTheHeader : Obligations.TimestampReachesOnlyTheHeader := by
  intro s s' t hc hc' hw hw' hpal hrot hsrc h
  have hs := sourceWritten_of_exec_convert hc h
  have hs' := hs.congr hsrc
  obtain ⟨t', h'⟩ := exists_exec_convert_next hc' hs'
  refine ⟨t', h', fun k hk hts => ?_⟩
  rcases Nat.lt_or_ge k Config.HDR_LEN with hlt | hge
  · rw [storeRead_header_of_convert hc hw h hlt, storeRead_header_of_convert hc' hw' h' hlt, headerBytes_congr hts]
  · obtain ⟨xe, y, hx, he, hy, rfl⟩ := exists_bytePos_eq (configRot180 s) hge hk
    obtain ⟨i, j, hi, hj, hb⟩ := storeRead_pair_of_convert hc hw h hx he hy
    obtain ⟨i', j', hi', hj', hb'⟩ := storeRead_pair_of_convert hc' hw' h' hx he hy
    rw [hrot] at hb'
    rw [hb, hb', indexAt_eq_of_same_source hs hs' hpal hsrc hi hi', indexAt_eq_of_same_source hs hs' hpal hsrc hj hj']

end Sys2Proof.Machine
end

section
/-! How a CONVERT starts, and what it leaves unchanged (42_ditherer.md R181, R182, R190; 44_control.md R241). -/

namespace Sys2Proof.Machine

/-- CONVERT's precondition, on the full values of the two registers (42_ditherer.md R181). -/
theorem dimensionsMatch_iff (s : State) : dimensionsMatch s = true ↔ s.srcW.toNat = 600 ∧ s.srcH.toNat = 448 := by
  simp [dimensionsMatch, ← BitVec.toNat_inj, Config.W, Config.H]

/-- On the host's turn with no command running, CONVERT's check alone decides (44_control.md R241). -/
theorem exec_convert_of_ready {s : State} (hr : Ready s) :
    exec .convert s =
      .next (if dimensionsMatch s = true then startCommand .convert s else raiseError .dimMismatch s) := by
  obtain ⟨ht, hb⟩ := hr
  show execConvert s = _
  rw [execConvert, ht]
  cases hd : dimensionsMatch s <;> simp [acceptCommand, hb, anyUnwritten, dimensionCheck, hd]

/-- Settles O10: the precondition fails, and an answer while no command runs fixes every field of STATUS. -/
theorem dimensionMismatchChangesOnlyStatus : Obligations.DimensionMismatchChangesOnlyStatus := by
  intro s hr hdim
  rw [exec_convert_of_ready hr, if_neg (by rw [dimensionsMatch_iff]; omega), raiseError,
    statusAnswered_of_not_busy hr.2]

/-- Settles O11: the precondition holds, so the command starts. -/
theorem convertIsAccepted : Obligations.ConvertIsAccepted := by
  intro s hr hw hh
  rw [exec_convert_of_ready hr, if_pos ((dimensionsMatch_iff s).2 ⟨hw, hh⟩)]
  rfl

/-- Every register but STATUS, the palette, the recorded faults and both agents' queues are as they were. -/
def KeepsRegisters (s t : State) : Prop :=
  t.config = s.config ∧ t.srcW = s.srcW ∧ t.srcH = s.srcH ∧ t.timestamp = s.timestamp ∧
  t.opaR = s.opaR ∧ t.opaG = s.opaG ∧ t.opaB = s.opaB ∧ t.opbR = s.opbR ∧ t.opbG = s.opbG ∧ t.opbB = s.opbB ∧
  t.res0 = s.res0 ∧ t.res1 = s.res1 ∧ t.res2 = s.res2 ∧ t.palette = s.palette ∧ t.faults = s.faults ∧
  t.turn = s.turn ∧ t.schedule = s.schedule ∧ t.host = s.host ∧ t.replies = s.replies

/-- The acceptance of a command that reads no operand register touches no register but STATUS, no store and no record
(44_control.md R241). -/
theorem acceptCommand_nil_keeps (i : Instr) (error : Option ErrCode) (s : State) :
    KeepsRegisters s (acceptCommand i [] error s) ∧ (acceptCommand i [] error s).scan = s.scan ∧
      (acceptCommand i [] error s).mem = s.mem := by
  rcases acceptCommand_cases i [] error s with ⟨_, h⟩ | ⟨_, hu, _⟩ | ⟨_, _, code, _, h⟩ | ⟨_, _, _, h⟩
  · rw [h]; simp [KeepsRegisters]
  · cases hu
  · rw [h]; simp [KeepsRegisters]
  · rw [h]; simp [KeepsRegisters]

theorem finishConvert_keepsRegisters (sc : Scan) (s : State) : KeepsRegisters s (finishConvert sc s) := by
  simp [KeepsRegisters]

/-- A CONVERT that answers keeps the registers, and the stores too unless it completes. -/
theorem exec_convert_keeps {s t : State} (h : exec .convert s = .next t) :
    KeepsRegisters s t ∧ (¬Completing .convert s → t.scan = s.scan ∧ t.mem = s.mem) := by
  rcases execConvert_cases s with
    ⟨_, hd⟩ | ⟨_, _, hd⟩ | ⟨_, _, _, _, hd⟩ | ⟨ht, hp, ha, hl, ⟨sc, _, hd⟩ | ⟨_, hd⟩⟩ <;>
    (rw [exec, hd] at h; cases h)
  · exact (acceptCommand_nil_keeps .convert _ s).imp_right fun hs _ => hs
  · simp [KeepsRegisters]
  · simp [KeepsRegisters]
  · exact ⟨finishConvert_keepsRegisters sc s, fun hc => absurd ⟨ht, hp, ha, hl⟩ hc⟩

/-- A cell that no copied number reaches reads as before. -/
theorem storeRead_storeCopy_of_listsOnly {α : Type} {base a : Nat} {s into : Store α}
    (h : ListsOnly (fun k => base + k ≠ a) s) : storeRead (storeCopy base s into) a = storeRead into a := by
  induction s generalizing into with
  | nil => rfl
  | cons e rest ih =>
    rw [storeCopy, ih h.tail, storeRead_storeWrite_other into e.2 h.head]

/-- The published bytes are those of a frame (42_ditherer.md R190). -/
theorem listsOnly_published {fb : Store Byte} (h : ListsOnly isFrameByte fb) (ts : Word) :
    ListsOnly isFrameByte (storeWriteAll fb 0 (headerBytes ts)) := by
  refine listsOnly_storeWriteAll h fun k _ hk => ?_
  simp only [length_headerBytes, Config.HDR_LEN] at hk
  simp only [isFrameByte, Config.FRAME_LEN]
  omega

/-- Outside the FRAME window a publication changes no byte (10_state.md R34). -/
theorem storeRead_finishConvert_outside {sc : Scan} {s : State} (hf : ListsOnly isFrameByte sc.fb) {a : Nat}
    (ha : ¬inFrameWindow a) : storeRead (finishConvert sc s).mem a = storeRead s.mem a := by
  rw [finishConvert_mem]
  refine storeRead_storeCopy_of_listsOnly fun k hk hka => ha ?_
  exact hka ▸ ⟨Nat.le_add_right _ _, Nat.add_lt_add_left (listsOnly_published hf s.timestamp k hk) _⟩

/-- Settles O28: only the completion touches a store, and its frame image lists bytes of a frame. -/
theorem convertFrame : Obligations.ConvertFrame := by
  intro s t hf h
  obtain ⟨⟨h1, h2, h3, h4, h5, h6, h7, h8, h9, h10, h11, h12, h13, h14, h15, h16, h17, h18, h19⟩, hidle⟩ :=
    exec_convert_keeps h
  refine ⟨h1, h2, h3, h4, h5, h6, h7, h8, h9, h10, h11, h12, h13, h14, h15, h16, h17, h18, h19, fun a ha => ?_,
    fun hc => ⟨(hidle hc).1, fun a => by rw [(hidle hc).2]⟩⟩
  by_cases hc : Completing .convert s
  · obtain ⟨sc, hsc, rfl⟩ := (exec_convert_next_iff hc).1 h
    obtain ⟨pix, _, hscan⟩ := convertScan_eq_some_iff.1 hsc
    exact storeRead_finishConvert_outside (listsOnly_fb_scanPixels hscan hf) ha
  · rw [(hidle hc).2]

end Sys2Proof.Machine
end

section
/-! The pairs of the body and their bytes (43_packer.md R211 to R214, R219). -/

namespace Sys2Proof.Machine

/-- Settles O40: the closed forms, and from them that positions are distinct and fill the body. -/
theorem pairsMapOntoTheBody : Obligations.PairsMapOntoTheBody :=
  ⟨fun _ _ hx he hy => ⟨bytePos_true hx he hy, bytePos_false he⟩, fun _ _ _ _ _ => bytePos_inj, exists_bytePos_eq⟩

/-- Settles O39: the even member goes to LATCH, and the odd member's byte takes the low nibble from there. -/
theorem pairPacksLowThenHighNibble : Obligations.PairPacksLowThenHighNibble := by
  intro rot i j sc sc1 sc2 xo he ho h1 h2
  rcases packIndex_cases h1 with ⟨_, rfl⟩ | ⟨hodd, _⟩
  · rcases packIndex_cases h2 with ⟨heven, _⟩ | ⟨_, _, rfl⟩
    · simp only at heven
      omega
    · refine ⟨rfl, packedByte j (indexNibble i), ?_, ?_, ?_, fun k hk => ?_⟩
      · rw [packedByte_low, toNat_indexNibble]
      · rw [packedByte_high, toNat_indexNibble]
      · simp [ho]
      · simp only [ho, Nat.add_sub_cancel, storeRead_storeWrite_other _ _ hk.symm]
  · omega

/-- A nibble that is a palette index leaves its top bit clear (43_packer.md R219). -/
theorem getLsbD_of_nibble_le_six {b : Byte} {k : Nat} (h : (b.extractLsb' k 4).toNat ≤ 6) : b.getLsbD (k + 3) = false := by
  have hbit : (b.extractLsb' k 4).getLsbD 3 = false := Nat.testBit_lt_two_pow (by omega)
  simpa [BitVec.getLsbD_extractLsb'] using hbit

/-- Settles O23: every body byte is the byte of a pair, and its nibbles are the pair's indices. -/
theorem bodyNibblesArePaletteIndices : Obligations.BodyNibblesArePaletteIndices := by
  intro s t hc hw h k hlo hhi
  obtain ⟨xe, y, hx, he, hy, rfl⟩ := exists_bytePos_eq (configRot180 s) hlo hhi
  obtain ⟨i, j, b, _, _, hb, hi, hj⟩ := nibbles_of_convert hc hw h hx he hy
  have hlow : (b.extractLsb' 0 4).toNat ≤ 6 := by omega
  have hhigh : (b.extractLsb' 4 4).toNat ≤ 6 := by omega
  exact ⟨b, hb, hlow, hhigh, getLsbD_of_nibble_le_six hlow, getLsbD_of_nibble_le_six hhigh⟩

end Sys2Proof.Machine
end

section
/-! The header, byte by byte (43_packer.md R215 to R217). -/

namespace Sys2Proof.Machine

theorem getElem?_bytesOf (v : Word) {n k : Nat} (h : k < n) : (bytesOf v n)[k]? = some (byteOf v k) := by
  simp [bytesOf, List.getElem?_range h]

/-- The header's first four bytes are the magic's, lowest first (43_packer.md R215, R216). -/
theorem getElem?_headerBytes_magic (ts : Word) {k : Nat} (h : k < 4) :
    (headerBytes ts)[k]? = some (byteOf (Config.MAGIC.setWidth 64) k) := by
  rw [headerBytes, List.append_assoc, List.getElem?_append_left (by simpa using h), getElem?_bytesOf _ h]

/-- Bytes 4 to 11 of the header are the timestamp's, lowest first (43_packer.md R216). -/
theorem getElem?_headerBytes_timestamp (ts : Word) {k : Nat} (h : k < 8) :
    (headerBytes ts)[4 + k]? = some (byteOf ts k) := by
  rw [headerBytes, List.append_assoc, List.getElem?_append_right (by simp), length_bytesOf, Nat.add_sub_cancel_left,
    List.getElem?_append_left (by simpa using h), getElem?_bytesOf _ h]

/-- From byte 12 on the header is zero (43_packer.md R217). -/
theorem getElem?_headerBytes_zero (ts : Word) {k : Nat} (hlo : 12 ≤ k) (hhi : k < 64) :
    (headerBytes ts)[k]? = some 0 := by
  rw [headerBytes, List.getElem?_append_right (by simpa [Config.TS_LEN] using hlo), List.getElem?_replicate_of_lt]
  simp only [List.length_append, length_bytesOf, Config.TS_LEN]
  omega

/-- Settles O42: magic, timestamp and zeros, one after the other. -/
theorem headerLayout : Obligations.HeaderLayout := fun ts =>
  ⟨length_headerBytes ts, getElem?_headerBytes_magic ts (by decide), getElem?_headerBytes_magic ts (by decide),
    getElem?_headerBytes_magic ts (by decide), getElem?_headerBytes_magic ts (by decide),
    fun _ => getElem?_headerBytes_timestamp ts, fun _ => getElem?_headerBytes_zero ts⟩

end Sys2Proof.Machine
end

section
/-! What the orientation reaches (43_packer.md R212, R214, R220). -/

namespace Sys2Proof.Machine

/-- Two frame images hold one byte at each pair, the first in the device's orientation and the second in the other
(43_packer.md R214). -/
def AgreePairByPair (fbT fbF : Store Byte) : Prop :=
  ∀ xe y, xe < 600 → xe % 2 = 0 → y < 448 → storeRead fbT (bytePos true xe y) = storeRead fbF (bytePos false xe y)

/-- One byte written at one pair of both images (43_packer.md R214: no other pair has its position). -/
theorem AgreePairByPair.after_storeWrite {fbT fbF : Store Byte} (h : AgreePairByPair fbT fbF) {xe y : Nat} (hx : xe < 600)
    (he : xe % 2 = 0) (hy : y < 448) (b : Byte) :
    AgreePairByPair (storeWrite fbT (bytePos true xe y) b) (storeWrite fbF (bytePos false xe y) b) := by
  intro xe' y' hx' he' hy'
  by_cases hpair : xe' = xe ∧ y' = y
  · obtain ⟨rfl, rfl⟩ := hpair
    rw [storeRead_storeWrite_same, storeRead_storeWrite_same]
  · have hne : ∀ rot, bytePos rot xe y ≠ bytePos rot xe' y' := fun rot hpos =>
      hpair (bytePos_inj hx' he' hy' hx he hy hpos.symm)
    rw [storeRead_storeWrite_other _ _ (hne true), storeRead_storeWrite_other _ _ (hne false), h xe' y' hx' he' hy']

/-- Two scans that differ in the positions of their pairs alone (43_packer.md R220). -/
def SameButPositions (scT scF : Scan) : Prop :=
  scF.cursor = scT.cursor ∧ scF.latch = scT.latch ∧ scF.pix = scT.pix ∧ AgreePairByPair scT.fb scF.fb

/-- Packing reads the orientation for the position of the byte alone (43_packer.md R211, R220). -/
theorem SameButPositions.after_packIndex {scT scF : Scan} (h : SameButPositions scT scF) (i : Fin 7) :
    Option.Rel SameButPositions (packIndex true i scT) (packIndex false i scF) := by
  obtain ⟨hc, hl, hp, hfb⟩ := h
  simp only [packIndex, hc, hl]
  split
  · exact .some ⟨rfl, rfl, hp, hfb⟩
  · next hodd =>
    split
    · exact .none
    · exact .some ⟨rfl, rfl, hp,
        hfb.after_storeWrite (Nat.lt_of_le_of_lt (Nat.sub_le _ _) scT.cursor.x.isLt) (by omega) scT.cursor.y.isLt _⟩

theorem SameButPositions.after_scanPixel {scT scF : Scan} (h : SameButPositions scT scF) (P : Params) (pal : Palette) :
    Option.Rel SameButPositions (scanPixel P pal true scT) (scanPixel P pal false scF) := by
  obtain ⟨hc, hl, hp, hfb⟩ := h
  simp only [scanPixel, hc, hp]
  split
  · exact .none
  · split
    · exact .none
    · apply SameButPositions.after_packIndex
      exact ⟨rfl, hl, rfl, hfb⟩

theorem SameButPositions.after_scanPixels {scT scF : Scan} (h : SameButPositions scT scF) (P : Params) (pal : Palette)
    (n : Nat) : Option.Rel SameButPositions (scanPixels P pal true n scT) (scanPixels P pal false n scF) := by
  induction n generalizing scT scF with
  | zero => exact .some h
  | succ n ih =>
    rw [scanPixels, scanPixels]
    match scanPixel P pal true scT, scanPixel P pal false scF, h.after_scanPixel P pal with
    | none, none, .none => exact .none
    | some _, some _, .some ⟨hc, hl, hp, hfb⟩ => exact ih ⟨congrArg cursorNext hc, hl, hp, hfb⟩

/-- Settles O41: each pixel keeps two scans the same but for the positions of their pairs. -/
theorem orientationChangesOnlyPositions : Obligations.OrientationChangesOnlyPositions := by
  intro P pal n sc fbT fbF hfb
  have hstart : SameButPositions { sc with fb := fbT } { sc with fb := fbF } := ⟨rfl, rfl, rfl, hfb⟩
  match scanPixels P pal true n { sc with fb := fbT }, scanPixels P pal false n { sc with fb := fbF },
    hstart.after_scanPixels P pal n with
  | none, none, .none => exact ⟨rfl, fun _ _ hT => nomatch hT⟩
  | some _, some _, .some ⟨hc, hl, hp, hagree⟩ =>
    refine ⟨by simp only [Option.map_some, hc, hl, hp], fun rT rF hT hF => ?_⟩
    cases hT
    cases hF
    exact hagree

end Sys2Proof.Machine
end

section
/-! A step runs a command, and the host's turn and the engine's turn as the commands see them (44_control.md R240 to
R242, R248). -/

namespace Sys2Proof.Machine

/-- The CMD write at the head of the host's queue runs its command (44_control.md R240, R241). -/
theorem step_of_command {s : State} {w : Word} {i : Instr} {rest : List HostOp} (ht : s.turn = .host)
    (hq : s.host = .write 0x000 8 w :: rest) (hd : decode w = .ok i) :
    step s = passTurn (exec i { s with host := rest }) := by
  rw [step_of_host ht hq, hostAct, hostWrite_cmd, submit, hd]

/-- A running command is what the engine's turn runs (44_control.md R248). -/
theorem step_of_running {s : State} {i : Instr} (ht : s.turn = .engine) (hp : s.phase = .run)
    (ha : s.active = some i) : step s = passTurn (exec i s) := by
  simp only [step, agentStep, ht, engineTurn, hp, ha]

/-- The word of a command, placed, is a CMD write of that word (30_encoding.md R90). -/
theorem withFetchWord_encode (s : State) (i : Instr) :
    s.withFetchWord 64 (encode i).toNat =
      { s with turn := .host, host := .write 0x000 8 (encode i) :: s.host } := by
  rw [State.withFetchWord, placeCommand, Nat.mod_eq_of_lt (encode i).isLt, BitVec.ofNat_toNat, BitVec.setWidth_eq]
  rfl

/-- Settles O4: the head of the host's queue on its turn, the active command on the engine's, and a placed word is at
that head. -/
theorem stepRunsTheDecodedCommand : Obligations.StepRunsTheDecodedCommand := by
  refine ⟨fun _ _ _ _ => step_of_command, fun _ _ => step_of_running, fun s i => ?_⟩
  rw [withFetchWord_encode, step_of_command rfl rfl (decode_encode i)]

/-- Settles O6: the branches of `execNop`, and an answer while no command runs fixes every field of STATUS. -/
theorem nopAnswersDoneWithNoError : Obligations.NopAnswersDoneWithNoError := by
  refine ⟨by decide, fun s ⟨ht, hb⟩ => ?_, fun s ht hb => ?_, fun s ht => ?_⟩
  · have hn : exec .nop s = .next (raiseError .none s) := by
      simp only [exec, execNop, ht, hb, Bool.false_eq_true, if_false]
    rw [hn, raiseError, statusAnswered_of_not_busy hb]
  · have hn : exec .nop s = .next (overrun s) := by simp only [exec, execNop, ht, hb, if_true]
    rw [hn, overrun, statusOverrun]
  · simp only [exec, execNop, ht]

theorem acceptCommand_of_not_busy {i : Instr} {regs : List DataReg} {s : State} (hb : s.status.busy = false)
    (hw : AllRegsWritten regs) : acceptCommand i regs none s = startCommand i s := by
  rw [acceptCommand, hb, if_neg Bool.false_ne_true, hw, if_neg Bool.false_ne_true]

theorem finiteCheck_of_finite {regs : List DataReg} (hf : AllRegsFinite regs) : finiteCheck regs = none :=
  if_neg (by rw [hf]; decide)

/-- Settles O7: no command runs and both checks of a direct command pass, so it starts. -/
theorem directCommandIsAccepted : Obligations.DirectCommandIsAccepted := by
  intro i s hi ⟨ht, hb⟩ hw hf
  obtain ⟨results, hd⟩ := exec_of_direct hi s
  have hstart : exec i s = .next (startCommand i s) := by
    simp only [hd, directCommand, ht, finiteCheck_of_finite hf, acceptCommand_of_not_busy hb hw]
  exact ⟨Nat.succ_pos _, hstart⟩

/-- The groups of commands (00_scope.md R17). -/
theorem eq_nop_or_eq_convert_or_isDirect (i : Instr) : i = .nop ∨ i = .convert ∨ IsDirect i := by
  cases i <;> simp [IsDirect]

/-- On the engine's turn every command but NOP is `engineStep` with its own completion (44_control.md R242, R248). -/
theorem exec_of_engine {i : Instr} (hi : i ≠ .nop) {s : State} (ht : s.turn = .engine) :
    ∃ completion, exec i s = engineStep i completion s := by
  rcases eq_nop_or_eq_convert_or_isDirect i with h | rfl | hd
  · exact absurd h hi
  · exact ⟨_, by rw [exec, execConvert, ht]⟩
  · obtain ⟨results, hx⟩ := exec_of_direct hd s
    exact ⟨_, by rw [hx, directCommand, ht]⟩

/-- Settles O15: whatever the completion is, it is not reached while more than one engine step is left. -/
theorem engineWaitsUntilItsLastStep : Obligations.EngineWaitsUntilItsLastStep := by
  intro i s hi ht hp ha hl
  obtain ⟨completion, hc⟩ := exec_of_engine hi ht
  rw [hc, engineStep, if_pos ⟨hp, ha⟩, if_pos hl, waitStep]

end Sys2Proof.Machine
end

section
/-! A direct command outlasts the host's turns and completes after its engine steps (44_control.md R248;
70_reset_and_hazards.md R296, R297). -/

namespace Sys2Proof.Machine

/-- A run of a machine takes its first step and goes on. -/
theorem run_succ_of_step {M : Host.Core} {s t : M.State} (h : M.step s = .next t) (n : Nat) :
    M.run (n + 1) s = M.run n t := by
  rw [Host.Core.run, h]

/-- A run goes on from where a shorter one ended. -/
theorem run_add {M : Host.Core} {m : Nat} {s t : M.State} (h : M.run m s = .next t) (n : Nat) :
    M.run (m + n) s = M.run n t := by
  induction m generalizing s with
  | zero => cases h; rw [Nat.zero_add]
  | succ m ih =>
    cases hs : M.step s with
    | next u =>
      rw [run_succ_of_step hs] at h
      rw [Nat.add_right_comm, run_succ_of_step hs, ih h]
    | fault f => rw [Host.Core.run, hs] at h; cases h
    | refused r => rw [Host.Core.run, hs] at h; cases h

/-- A run and one more step. -/
theorem run_snoc {m : Nat} {s t u : State} (h : core.run m s = .next t) (hs : step t = .next u) :
    core.run (m + 1) s = .next u :=
  (run_add h 1).trans (run_succ_of_step (M := core) hs 0)

/-- On the way from `s` command `i` still runs with `n` engine steps left, no fault recorded since and the operand
registers as they were (20_memory.md R70). -/
def StillRuns (i : Instr) (s : State) (n : Nat) (u : State) : Prop :=
  u.phase = .run ∧ u.active = some i ∧ u.latLeft = n ∧ u.faults = s.faults ∧ operandRegsAB u = operandRegsAB s

theorem StillRuns.after_nextTurn {i : Instr} {s u : State} {n : Nat} (h : StillRuns i s n u) :
    StillRuns i s n (nextTurn u) := by
  obtain ⟨a, sch, k, d, hn⟩ := nextTurn_frame u
  rw [hn]
  exact h

/-- An engine step with more than one left. -/
theorem step_of_stillRuns_waiting {i : Instr} {s u : State} {n : Nat} (hi : IsDirect i) (ht : u.turn = .engine)
    (h : StillRuns i s (n + 2) u) :
    step u = .next (nextTurn (waitStep u)) ∧ StillRuns i s (n + 1) (waitStep u) := by
  obtain ⟨hp, ha, hl, hf, hr⟩ := h
  have hne : i ≠ .nop := by rintro rfl; simp [IsDirect] at hi
  refine ⟨?_, hp, ha, by simp [hl], hf, hr⟩
  rw [step_of_running ht hp ha, engineWaitsUntilItsLastStep i u hne ht hp ha (by omega), waitStep, passTurn]

/-- The last engine step (20_memory.md R71). -/
theorem step_of_stillRuns_completing {i : Instr} {s u : State} (hi : IsDirect i) (ht : u.turn = .engine)
    (h : StillRuns i s 1 u) :
    ∃ t, step u = .next (nextTurn t) ∧ DirectDone i s (nextTurn t) ∧ t.phase = .idle ∧ t.schedule = u.schedule := by
  obtain ⟨hp, ha, hl, hf, hr⟩ := h
  obtain ⟨r, hx⟩ := exec_of_direct_completing hi ⟨ht, hp, ha, Nat.le_of_eq hl⟩
  refine ⟨completeDirect (commandRegs i u) r u, by rw [step_of_running ht hp ha, hx, passTurn], ?_,
    completeDirect_phase _ _ _, completeDirect_schedule _ _ _⟩
  refine ⟨by simp, by simp, by simp, by simp, by simp [writtenReg], fun hw => ?_⟩
  rw [← commandRegs_congr hr] at hw
  rw [nextTurn_faults, completeDirect_faults, noteRead_of_written hw, hf]

theorem nextTurn_of_cons {s : State} {a : Agent} {rest : List Agent} (h : s.schedule = a :: rest) :
    nextTurn s = { s with turn := a, schedule := rest } := by
  simp only [nextTurn, h]

theorem nextTurn_of_nil {s : State} (h : s.schedule = []) : nextTurn s = freeTurn s := by
  simp only [nextTurn, h]

theorem freeTurn_turn_of_idle {s : State} (h : s.phase = .idle) : (freeTurn s).turn = .host := by
  simp [freeTurn, engineNext, h]

/-- Where the schedule gives the engine every turn the command completes after exactly its engine steps
(44_control.md R248). -/
theorem completes_by_engine_turns {i : Instr} {s u : State} {n : Nat} (hi : IsDirect i) (h : StillRuns i s (n + 1) u)
    (ht : u.turn = .engine) (hs : u.schedule = List.replicate n .engine) :
    ∃ t, core.run (n + 1) u = .next t ∧ DirectDone i s t ∧ t.turn = .host := by
  induction n generalizing u with
  | zero =>
    obtain ⟨t, hx, hd, hp, hsch⟩ := step_of_stillRuns_completing hi ht h
    refine ⟨nextTurn t, run_succ_of_step (M := core) hx 0, hd, ?_⟩
    rw [nextTurn_of_nil (hsch.trans hs), freeTurn_turn_of_idle hp]
  | succ n ih =>
    obtain ⟨hx, hw⟩ := step_of_stillRuns_waiting hi ht h
    have hn := nextTurn_of_cons (s := waitStep u) hs
    rw [run_succ_of_step (M := core) hx]
    exact ih hw.after_nextTurn (by rw [hn]) (by rw [hn])

/-- The schedule is exhausted, and the host polls or has nothing to issue (30_encoding.md R99). -/
def Polling (u : State) : Prop := u.schedule = [] ∧ ∀ op ∈ u.host, op = .poll

/-- A polling host changes its queue and its replies alone, and goes on polling. -/
theorem hostTurn_of_polling {u : State} (h : Polling u) :
    ∃ q r, hostTurn u = .next { u with host := q, replies := r } ∧ Polling { u with host := q, replies := r } := by
  obtain ⟨hs, hq⟩ := h
  cases hh : u.host with
  | nil =>
    have ht : hostTurn u = .next u := by simp only [hostTurn, hh]
    exact ⟨u.host, u.replies, ht, hs, hq⟩
  | cons op rest =>
    rw [hh, List.forall_mem_cons] at hq
    obtain ⟨rfl, hrest⟩ := hq
    have ht : hostTurn u = .next (hostPoll { u with host := rest }) := by simp only [hostTurn, hh, hostAct]
    rw [ht]
    cases hb : u.status.busy with
    | true =>
      rw [hostPoll_of_busy (s := { u with host := rest }) hb]
      exact ⟨_, _, rfl, hs, List.forall_mem_cons.2 ⟨rfl, hrest⟩⟩
    | false =>
      rw [hostPoll_of_not_busy (s := { u with host := rest }) hb]
      exact ⟨_, _, rfl, hs, hrest⟩

/-- A polling host's turn leaves the command as it was, and the turn passes as the free numbers say (log 9). -/
theorem step_of_polling {i : Instr} {s u : State} {n : Nat} (ht : u.turn = .host) (h : StillRuns i s n u)
    (hq : Polling u) :
    ∃ v, step u = .next (freeTurn v) ∧ v.hostTurns = u.hostTurns ∧ StillRuns i s n (freeTurn v) ∧
      Polling (freeTurn v) := by
  obtain ⟨q, r, hx, hp⟩ := hostTurn_of_polling hq
  refine ⟨{ u with host := q, replies := r }, ?_, rfl, h, hp⟩
  have ha : agentStep u = hostTurn u := by simp only [agentStep, ht]
  rw [step, ha, hx, passTurn, nextTurn_of_nil hp.1]

/-- The command outlasts every turn the host still has (70_reset_and_hazards.md R296). -/
theorem outlasts_host_turns {i : Instr} {s u : State} {n k : Nat} (ht : u.turn = .host) (hk : u.hostTurns = k)
    (h : StillRuns i s n u) (hq : Polling u) :
    ∃ t, core.run k u = .next t ∧ t.turn = .host ∧ t.hostTurns = 0 ∧ StillRuns i s n t ∧ Polling t := by
  induction k generalizing u with
  | zero => exact ⟨u, rfl, ht, hk, h, hq⟩
  | succ k ih =>
    obtain ⟨v, hx, hv, h', hq'⟩ := step_of_polling ht h hq
    rw [run_succ_of_step (M := core) hx]
    rcases freeTurn_cases v with ⟨hp, _⟩ | ⟨_, h0, _⟩ | ⟨_, k', hk', hf⟩
    · have hrun : v.phase = .run := h'.1
      rw [hp] at hrun
      cases hrun
    · omega
    · exact ih (by rw [hf]) (by rw [hf]; dsimp only; omega) h' hq'

/-- The engine gets its turn (44_control.md R248). -/
theorem reaches_engine_turn {i : Instr} {s u : State} {n : Nat} (h : StillRuns i s n u) (hq : Polling u) :
    ∃ m t, core.run m u = .next t ∧ t.turn = .engine ∧ StillRuns i s n t ∧ Polling t := by
  cases ht : u.turn with
  | engine => exact ⟨0, u, rfl, ht, h, hq⟩
  | host =>
    obtain ⟨w, hw, htw, h0, hr, hqw⟩ := outlasts_host_turns ht rfl h hq
    obtain ⟨v, hx, hv, h', hq'⟩ := step_of_polling htw hr hqw
    refine ⟨u.hostTurns + 1, freeTurn v, run_snoc hw hx, ?_, h', hq'⟩
    have hrun : v.phase = .run := h'.1
    simp [freeTurn, engineNext, hrun, hv, h0]

/-- Past the schedule's end the command completes, however many turns the host has between (70_reset_and_hazards.md
R296, R297). -/
theorem completes_under_polling {i : Instr} {s u : State} {n : Nat} (hi : IsDirect i) (h : StillRuns i s (n + 1) u)
    (hq : Polling u) : ∃ m t, n + 1 ≤ m ∧ core.run m u = .next t ∧ DirectDone i s t := by
  induction n generalizing u with
  | zero =>
    obtain ⟨m, v, hm, ht, hv, _⟩ := reaches_engine_turn h hq
    obtain ⟨t, hx, hd, _⟩ := step_of_stillRuns_completing hi ht hv
    exact ⟨m + 1, nextTurn t, Nat.le_add_left 1 m, run_snoc hm hx, hd⟩
  | succ n ih =>
    obtain ⟨m, v, hm, ht, hv, hqv⟩ := reaches_engine_turn h hq
    obtain ⟨hx, hw⟩ := step_of_stillRuns_waiting hi ht hv
    have hqw : Polling (nextTurn (waitStep v)) := by
      rw [nextTurn_of_nil (s := waitStep v) hqv.1]
      exact hqv
    obtain ⟨m', t, hle, hrun, hd⟩ := ih hw.after_nextTurn hqw
    exact ⟨m + 1 + m', t, by omega, (run_add (run_snoc hm hx) m').trans hrun, hd⟩

/-- Settles O21, by induction on the engine steps left and, between two of them, on the host's turns. -/
theorem directCommandCompletesAfterItsLatency : Obligations.DirectCommandCompletesAfterItsLatency := by
  intro i s n hi hp ha hl
  have h : StillRuns i s (n + 1) s := ⟨hp, ha, hl, rfl, rfl⟩
  refine ⟨completes_by_engine_turns hi h, fun hs hq => ⟨completes_under_polling hi h ⟨hs, hq⟩, fun ht => ?_⟩⟩
  obtain ⟨t, hrun, htt, _, ⟨hpt, _, hlt, _⟩, _⟩ := outlasts_host_turns ht rfl h ⟨hs, hq⟩
  exact ⟨t, hrun, htt, hpt, hlt⟩

end Sys2Proof.Machine
end

section
/-! Host accesses by target: the windows, the registers, and everything else (20_memory.md R61 to R64; 44_control.md R243
to R247). -/

namespace Sys2Proof.Machine

/-- An access that a window takes, by its first and its last byte (20_memory.md R62, R64). -/
theorem inWindow_iff {base len last : Nat} (hlast : base + len = last + 1) {a n : Nat} :
    inWindow base len a n = true ↔
      (n = 1 ∨ n = 2 ∨ n = 4 ∨ n = 8) ∧ a % n = 0 ∧ base ≤ a ∧ a + n - 1 ≤ last := by
  simp only [inWindow, windowWidth, Bool.and_eq_true, Bool.or_eq_true, beq_iff_eq, decide_eq_true_eq, or_assoc, and_assoc]
  refine and_congr_right fun hn => and_congr_right fun _ => and_congr_right fun _ => ?_
  omega

/-- The accesses that SRC takes (20_memory.md R62, R64). -/
theorem inWindow_src_iff {a n : Nat} :
    inWindow Config.SRC_BASE Config.SRC_LEN a n = true ↔
      (n = 1 ∨ n = 2 ∨ n = 4 ∨ n = 8) ∧ a % n = 0 ∧ 0x100000 ≤ a ∧ a + n - 1 ≤ 0x2067FF :=
  inWindow_iff (by decide)

/-- The accesses that FRAME takes (20_memory.md R62, R64). -/
theorem inWindow_frame_iff {a n : Nat} :
    inWindow Config.FRAME_BASE Config.FRAME_LEN a n = true ↔
      (n = 1 ∨ n = 2 ∨ n = 4 ∨ n = 8) ∧ a % n = 0 ∧ 0x300000 ≤ a ∧ a + n - 1 ≤ 0x320D3F :=
  inWindow_iff (by decide)

/-- Every register lies below the windows (20_memory.md R62). -/
theorem regOffset_le (r : RegName) : regOffset r ≤ 0x120 := by
  cases r with
  | pal i c => simp only [regOffset]; omega
  | _ => simp only [regOffset, Nat.reduceLeDiff]

/-- A whole access at a register's offset reaches the register (10_state.md R21; 20_memory.md R64). -/
theorem targetOf_regOffset (r : RegName) : targetOf (regOffset r) 8 = .reg r := by
  have hr := regOffset_le r
  rw [targetOf, if_neg (by simp only [Config.BLOCK_LEN]; omega), if_neg (by rw [inWindow_src_iff]; omega),
    if_neg (by rw [inWindow_frame_iff]; omega), if_pos rfl, regAt_regOffset]

theorem hostRead_regOffset (r : RegName) (s : State) : hostRead (regOffset r) 8 s = .next (readReg r s) := by
  rw [hostRead, targetOf_regOffset]

theorem hostWrite_regOffset {r : RegName} (hr : r ≠ .cmd) (v : Word) (s : State) :
    hostWrite (regOffset r) 8 v s = writeReg r v s := by
  rw [hostWrite, targetOf_regOffset]
  cases r with
  | cmd => exact absurd rfl hr
  | _ => rfl

/-- An access below 0x400000 that neither a window nor a register takes has no target (44_control.md R247). -/
theorem targetOf_bad {a n : Nat} (ha : a < 0x400000) (hreg : n = 8 → ∀ r, a ≠ regOffset r)
    (hwin : (n = 1 ∨ n = 2 ∨ n = 4 ∨ n = 8) → a % n = 0 →
      ¬(0x100000 ≤ a ∧ a + n - 1 ≤ 0x2067FF) ∧ ¬(0x300000 ≤ a ∧ a + n - 1 ≤ 0x320D3F)) :
    targetOf a n = .bad := by
  have hsrc : ¬inWindow Config.SRC_BASE Config.SRC_LEN a n = true := fun h => by
    obtain ⟨hn, hm, hr⟩ := inWindow_src_iff.1 h
    exact (hwin hn hm).1 hr
  have hframe : ¬inWindow Config.FRAME_BASE Config.FRAME_LEN a n = true := fun h => by
    obtain ⟨hn, hm, hr⟩ := inWindow_frame_iff.1 h
    exact (hwin hn hm).2 hr
  rw [targetOf, if_neg (Nat.not_le.2 ha), if_neg hsrc, if_neg hframe]
  by_cases hn : n = 8
  · rw [if_pos hn]
    cases hat : regAt a with
    | none => rfl
    | some r => exact absurd (regOffset_of_regAt hat) (hreg hn r)
  · rw [if_neg hn]

/-- Settles O49: such an access has no target in the block, and from 0x400000 on the block has no offsets. -/
theorem otherAccessesAreBad : Obligations.OtherAccessesAreBad := by
  refine ⟨fun a n v s ha hreg hwin => ?_, fun a n v s ha => ?_⟩
  · rw [hostRead, hostWrite, targetOf_bad ha hreg hwin]
    exact ⟨rfl, rfl⟩
  · have ht : targetOf a n = .outside := if_pos ha
    rw [hostRead, hostWrite, ht]
    exact ⟨rfl, rfl⟩

end Sys2Proof.Machine
end

section
/-! The bytes of a window, written and read little-endian (20_memory.md R63; 44_control.md R245, R246). -/

namespace Sys2Proof.Machine

/-- Consecutive cells are read together exactly when each of them is (10_state.md R41). -/
theorem storeReadAll_eq_some_iff {α : Type} {s : Store α} {a n : Nat} {vs : List α} (hlen : vs.length = n) :
    storeReadAll s a n = some vs ↔ ∀ k, k < n → storeRead s (a + k) = vs[k]? := by
  induction n generalizing a vs with
  | zero => simp [storeReadAll, List.length_eq_zero_iff.1 hlen]
  | succ n ih =>
    obtain ⟨w, ws, rfl⟩ := List.exists_cons_of_length_eq_add_one hlen
    have hsplit : (∀ k, k < n + 1 → storeRead s (a + k) = (w :: ws)[k]?) ↔
        storeRead s a = some w ∧ ∀ k, k < n → storeRead s (a + 1 + k) = ws[k]? := by
      rw [Nat.forall_lt_succ_left]
      simp [Nat.add_assoc, Nat.add_comm 1]
    rw [hsplit, ← ih (by simpa using hlen), storeReadAll]
    cases storeRead s a with
    | none => simp
    | some v => cases storeReadAll s (a + 1) n <;> simp

/-- One unwritten cell makes the read of several one of none (10_state.md R41). -/
theorem storeReadAll_eq_none {α : Type} {s : Store α} {a n k : Nat} (hk : k < n) (h : storeRead s (a + k) = none) :
    storeReadAll s a n = none := by
  cases hall : storeReadAll s a n with
  | none => rfl
  | some vs =>
    have hlen := storeReadAll_length s a n vs hall
    rw [(storeReadAll_eq_some_iff hlen).1 hall k hk, List.getElem?_eq_none_iff] at h
    omega

/-- The `n` low bytes of a word, read as one little-endian value (20_memory.md R63). -/
theorem wordOfBytes_bytesOf_eq_ofNat (v : Word) (n : Nat) :
    wordOfBytes (bytesOf v n) = BitVec.ofNat 64 (v.toNat % 2 ^ (8 * n)) := by
  apply BitVec.eq_of_getLsbD_eq
  intro j hj
  have hr : (BitVec.ofNat 64 (v.toNat % 2 ^ (8 * n))).getLsbD j = (decide (j < 8 * n) && v.getLsbD j) := by
    rw [BitVec.getLsbD_ofNat, decide_eq_true hj, Bool.true_and, Nat.testBit_mod_two_pow, BitVec.testBit_toNat]
  rw [getLsbD_wordOfBytes _ hj, hr, List.getD]
  by_cases h : j / 8 < n
  · rw [getElem?_bytesOf v h, decide_eq_true (by omega : j < 8 * n), Option.getD_some, byteOf,
      BitVec.getLsbD_extractLsb']
    simp [Nat.mod_lt j, Nat.div_add_mod]
  · rw [List.getElem?_eq_none (by simpa using h), decide_eq_false (by omega : ¬j < 8 * n)]
    simp

/-- A window read of the bytes of a value (44_control.md R245). -/
theorem readWindow_of_bytes {s : State} {a n : Nat} {v : Word}
    (h : ∀ k, k < n → storeRead s.mem (a + k) = some (v.extractLsb' (8 * k) 8)) :
    readWindow a n s = .next { s with replies := BitVec.ofNat 64 (v.toNat % 2 ^ (8 * n)) :: s.replies } := by
  have hall : storeReadAll s.mem a n = some (bytesOf v n) :=
    (storeReadAll_eq_some_iff (length_bytesOf v n)).2 fun k hk => by rw [h k hk, getElem?_bytesOf v hk, byteOf]
  rw [readWindow, hall]
  dsimp only
  rw [wordOfBytes_bytesOf_eq_ofNat, reply]

/-- A window read that meets an unwritten byte (10_state.md R41). -/
theorem readWindow_of_unwritten {s : State} {a n k : Nat} (hk : k < n) (h : storeRead s.mem (a + k) = none) :
    readWindow a n s = .fault .readUnwritten := by
  rw [readWindow, storeReadAll_eq_none hk h]

/-- A read of the bytes of a window: SRC always, FRAME while no command runs (44_control.md R245). -/
theorem hostRead_eq_readWindow {s : State} {a n : Nat} (hn : n = 1 ∨ n = 2 ∨ n = 4 ∨ n = 8) (hm : a % n = 0)
    (hr : (0x100000 ≤ a ∧ a + n - 1 ≤ 0x2067FF) ∨ (s.status.busy = false ∧ 0x300000 ≤ a ∧ a + n - 1 ≤ 0x320D3F)) :
    hostRead a n s = readWindow a n s := by
  rcases hr with hsrc | ⟨hb, hframe⟩
  · rw [hostRead, targetOf_src (inWindow_src_iff.2 ⟨hn, hm, hsrc⟩)]
  · rw [hostRead, targetOf_frame (inWindow_frame_iff.2 ⟨hn, hm, hframe⟩)]
    exact if_neg (by simp [hb])

/-- A write that SRC takes, while no command runs (44_control.md R246). -/
theorem hostWrite_src {s : State} {a n : Nat} (hb : s.status.busy = false) (hn : n = 1 ∨ n = 2 ∨ n = 4 ∨ n = 8)
    (hm : a % n = 0) (hr : 0x100000 ≤ a ∧ a + n - 1 ≤ 0x2067FF) (v : Word) :
    hostWrite a n v s = .next { s with mem := storeWriteAll s.mem a (bytesOf v n) } := by
  rw [hostWrite, targetOf_src (inWindow_src_iff.2 ⟨hn, hm, hr⟩)]
  exact if_neg (by simp [hb])

/-- Settles O51: a write stores the bytes of its value one after the other, and a read puts bytes together in that
order. -/
theorem sourceWritesReadBackLittleEndian : Obligations.SourceWritesReadBackLittleEndian := by
  refine ⟨fun s a n v hb hn hm hlo hhi => ⟨_, hostWrite_src hb hn hm ⟨hlo, hhi⟩ v, fun k hk => ?_, fun b hout => ?_⟩,
    fun s a n v hn hm hr => ?_⟩
  · rw [storeRead_storeWriteAll, length_bytesOf, if_pos (by omega), Nat.add_sub_cancel_left, getElem?_bytesOf v hk, byteOf]
  · rw [storeRead_storeWriteAll, length_bytesOf, if_neg (by omega)]
  · rw [hostRead_eq_readWindow hn hm hr]
    exact ⟨readWindow_of_bytes, fun ⟨k, hk, h⟩ => readWindow_of_unwritten hk h⟩

end Sys2Proof.Machine
end

section
/-! Host reads and writes of the registers (44_control.md R243, R244). -/

namespace Sys2Proof.Machine

/-- A host read of a register with a mark (44_control.md R243, log 1). -/
theorem registerAnswers_of_readReg {r : RegName} {d : DataReg} {s : State} (h : readReg r s = replyReg d s) :
    RegisterAnswers (regOffset r) d s := by
  rw [RegisterAnswers, hostRead_regOffset, h]
  refine ⟨fun hw => ?_, fun hu => ⟨(noteRead [d] s).faults, ?_, fun g => ?_⟩⟩
  · rw [replyReg, noteRead_of_written (by simp [anyUnwritten, hw]), reply]
  · rcases noteRead_cases [d] s with hn | hn <;> rw [replyReg, hn, reply]
  · simp [mem_noteRead, anyUnwritten, hu]

theorem replyResult_of_not_busy {s : State} (hb : s.status.busy = false) (r : DataReg) :
    replyResult r s = replyReg r s := if_neg (by simp [hb])

/-- Every palette register but PAL_6_B lies inside the register file (10_state.md R21; 20_memory.md R62). -/
theorem regOffset_pal_lt {i : Fin 7} {c : Fin 3} (h : i.val < 6 ∨ c.val < 2) : regOffset (.pal i c) < Config.REG_LEN := by
  simp only [regOffset, Config.REG_LEN]
  omega

/-- A host read of a palette register inside the register file (44_control.md R243). -/
theorem hostRead_pal {i : Fin 7} {c : Fin 3} (h : i.val < 6 ∨ c.val < 2) {a : Nat} (ha : a = regOffset (.pal i c))
    (s : State) :
    hostRead a 8 s = .next { s with replies := channelOf (paletteEntry s.palette i) c :: s.replies } := by
  rw [ha, hostRead_regOffset, readReg, noteReserved_of_lt (regOffset_pal_lt h), reply]

/-- An access to PAL_6_B records BAD_ACCESS and does nothing else (log 13). -/
theorem noteReserved_pal_6_b (s : State) :
    ∃ f : List Fault, (∀ g, g ∈ f ↔ g = .badAccess ∨ g ∈ s.faults) ∧ noteReserved (.pal 6 2) s = { s with faults := f } := by
  refine ⟨(noteReserved (.pal 6 2) s).faults, fun g => ?_, ?_⟩
  · simp [mem_noteReserved, regOffset, Config.REG_LEN]
  · rcases noteReserved_cases (.pal 6 2) s with h | h <;> rw [h]

/-- Settles O45, register by register of the map. -/
theorem registerReadsReturnTheirValue : Obligations.RegisterReadsReturnTheirValue := by
  intro s
  refine ⟨hostRead_regOffset .cmd s, hostRead_regOffset .status s, hostRead_regOffset .config s,
    hostRead_regOffset .srcW s, hostRead_regOffset .srcH s, hostRead_regOffset .timestamp s, ?_, fun hb => ?_,
    fun i => ⟨?_, ?_, fun hi => ?_⟩, ?_⟩
  · simp only [List.forall_mem_cons]
    exact ⟨registerAnswers_of_readReg (r := .opaR) rfl, registerAnswers_of_readReg (r := .opaG) rfl,
      registerAnswers_of_readReg (r := .opaB) rfl, registerAnswers_of_readReg (r := .opbR) rfl,
      registerAnswers_of_readReg (r := .opbG) rfl, registerAnswers_of_readReg (r := .opbB) rfl, List.forall_mem_nil _⟩
  · simp only [List.forall_mem_cons]
    exact ⟨registerAnswers_of_readReg (r := .res0) (replyResult_of_not_busy hb _),
      registerAnswers_of_readReg (r := .res1) (replyResult_of_not_busy hb _),
      registerAnswers_of_readReg (r := .res2) (replyResult_of_not_busy hb _), List.forall_mem_nil _⟩
  · exact hostRead_pal (c := 0) (.inr (by decide)) rfl s
  · exact hostRead_pal (c := 1) (.inr (by decide)) (by simp only [regOffset]; omega) s
  · exact hostRead_pal (c := 2) (.inl hi) (by simp only [regOffset]; omega) s
  · obtain ⟨f, hf, hn⟩ := noteReserved_pal_6_b s
    have hread : hostRead 0x120 8 s = .next (readReg (.pal 6 2) s) := hostRead_regOffset (.pal 6 2) s
    exact ⟨f, hf, by rw [hread, readReg, hn]; rfl⟩

/-- A host write of an input register while no command runs (44_control.md R244). -/
theorem hostWrite_input {r : RegName} {v : Word} {s t : State} (hb : s.status.busy = false) (hr : r ≠ .cmd)
    (h : writeReg r v s = writeInput s t) : hostWrite (regOffset r) 8 v s = .next t := by
  rw [hostWrite_regOffset hr, h, writeInput, hb, if_neg Bool.false_ne_true]

/-- Settles O46: each of the nine registers stores `v` by `writeInput`. -/
theorem inputWritesStoreTheirValue : Obligations.InputWritesStoreTheirValue := by
  intro s v hb
  exact ⟨hostWrite_input (r := .srcW) hb nofun rfl, hostWrite_input (r := .srcH) hb nofun rfl,
    hostWrite_input (r := .timestamp) hb nofun rfl, hostWrite_input (r := .opaR) hb nofun rfl,
    hostWrite_input (r := .opaG) hb nofun rfl, hostWrite_input (r := .opaB) hb nofun rfl,
    hostWrite_input (r := .opbR) hb nofun rfl, hostWrite_input (r := .opbG) hb nofun rfl,
    hostWrite_input (r := .opbB) hb nofun rfl⟩

/-- A host write of a palette register stores nothing (44_control.md R244). -/
theorem hostWrite_pal (i : Fin 7) (c : Fin 3) (v : Word) (s : State) :
    hostWrite (regOffset (.pal i c)) 8 v s = .next (noteReserved (.pal i c) s) := by
  rw [hostWrite_regOffset (r := .pal i c) nofun, writeReg]

/-- Settles O48: the read-only registers and FRAME ignore a write, and PAL_6_B records the access. -/
theorem writesToReadOnlyStateAreIgnored : Obligations.WritesToReadOnlyStateAreIgnored := by
  intro s v
  refine ⟨?_, fun i c h => ?_, ?_, fun a n hn hm hlo hhi => ?_⟩
  · simp only [List.forall_mem_cons]
    exact ⟨hostWrite_regOffset (r := .status) nofun v s, hostWrite_regOffset (r := .config) nofun v s,
      hostWrite_regOffset (r := .res0) nofun v s, hostWrite_regOffset (r := .res1) nofun v s,
      hostWrite_regOffset (r := .res2) nofun v s, List.forall_mem_nil _⟩
  · exact (hostWrite_pal i c v s).trans (by rw [noteReserved_of_lt (regOffset_pal_lt h)])
  · obtain ⟨f, hf, hn⟩ := noteReserved_pal_6_b s
    exact ⟨f, hf, (hostWrite_pal 6 2 v s).trans (by rw [hn])⟩
  · rw [hostWrite, targetOf_frame (inWindow_frame_iff.2 ⟨hn, hm, hlo, hhi⟩)]

end Sys2Proof.Machine
end

section
/-! What a CMD write can answer: the errors, the unwritten operands and the overrun (60_exceptions.md R260 to R269;
44_control.md R241). -/

namespace Sys2Proof.Machine

/-- On the host's turn the check of a direct command is that of its operands (60_exceptions.md R263). -/
theorem exec_direct_of_host {i : Instr} (hi : IsDirect i) {s : State} (ht : s.turn = .host) :
    exec i s = .next (acceptCommand i (commandRegs i s) (finiteCheck (commandRegs i s)) s) := by
  obtain ⟨results, hx⟩ := exec_of_direct hi s
  rw [hx, directCommand, ht]

/-- On the host's turn every command but NOP is an acceptance over the registers it reads (44_control.md R241). -/
theorem exec_of_host {i : Instr} (hi : i ≠ .nop) {s : State} (ht : s.turn = .host) :
    ∃ error, exec i s = .next (acceptCommand i (commandRegs i s) error s) := by
  rcases eq_nop_or_eq_convert_or_isDirect i with h | rfl | hd
  · exact absurd h hi
  · exact ⟨_, by rw [exec, execConvert, ht, commandRegs]⟩
  · exact ⟨_, exec_direct_of_host hd ht⟩

theorem acceptCommand_of_unwritten {i : Instr} {regs : List DataReg} {error : Option ErrCode} {s : State}
    (hb : s.status.busy = false) (hu : anyUnwritten regs = true) :
    acceptCommand i regs error s = unwrittenOperand s := by
  rw [acceptCommand.eq_def, hb, if_neg Bool.false_ne_true, if_pos hu]

theorem acceptCommand_of_error {i : Instr} {regs : List DataReg} {code : ErrCode} {s : State}
    (hb : s.status.busy = false) (hw : AllRegsWritten regs) :
    acceptCommand i regs (some code) s = raiseError code s := by
  rw [acceptCommand, hb, if_neg Bool.false_ne_true, hw, if_neg Bool.false_ne_true]

theorem finiteCheck_of_nonfinite {regs : List DataReg} {r : DataReg} (hr : r ∈ regs)
    (hv : fisNaN r.value = true ∨ fisInf r.value = true) : finiteCheck regs = some .nonfiniteOperand := by
  have hf : ¬fisFinite r.value = true := fun hf => by
    rw [fisNaN_of_isFinite hf, fisInf_of_isFinite hf] at hv
    exact hv.elim nofun nofun
  exact if_pos (List.any_eq_true.2 ⟨r, hr, by rw [Bool.eq_false_of_not_eq_true hf, Bool.not_false]⟩)

/-- Settles O8: the operands are written, so the check of their values decides, and it fails. -/
theorem nonfiniteOperandIsRejected : Obligations.NonfiniteOperandIsRejected := by
  rintro i s hi ⟨ht, hb⟩ hw ⟨r, hr, hv⟩
  rw [exec_direct_of_host hi ht, finiteCheck_of_nonfinite hr hv, acceptCommand_of_error hb hw, raiseError,
    statusAnswered_of_not_busy hb]

/-- The record of a fault touches the list of faults alone (10_state.md R41). -/
theorem recordFault_eq (f : Fault) (s : State) : recordFault f s = { s with faults := (recordFault f s).faults } := by
  unfold recordFault
  split <;> rfl

/-- With no command running the cleared STATUS has no bit set (44_control.md R241). -/
theorem statusCleared_of_not_busy {st : Status} (hb : st.busy = false) :
    statusCleared st = { busy := false, done := false, ovr := false, err := .none } := by
  rw [statusCleared, hb]

/-- Settles O9: the unwritten register is found before the values are looked at, and what it leaves is the cleared STATUS
and the record. -/
theorem unwrittenOperandIsRecorded : Obligations.UnwrittenOperandIsRecorded := by
  rintro i s hi ⟨ht, hb⟩ hu
  refine ⟨(unwrittenOperand s).faults, fun g => mem_recordFault .readUnwritten g _, ?_⟩
  rw [exec_direct_of_host hi ht, acceptCommand_of_unwritten hb hu, ← statusCleared_of_not_busy hb]
  exact congrArg Host.Outcome.next (recordFault_eq .readUnwritten _)

/-- What a CMD write on the host's turn leaves: one constructor per outcome, with its guard (44_control.md R241;
60_exceptions.md R264, R268, R269). -/
inductive CommandAnswer (s : State) : State → Prop where
  /-- A word while a command runs. -/
  | overran (hb : s.status.busy = true) : CommandAnswer s (overrun s)
  /-- A direct command that meets an unwritten operand. -/
  | operandUnwritten (hb : s.status.busy = false) : CommandAnswer s (unwrittenOperand s)
  /-- A word rejected with a code, or a NOP answered. -/
  | errorRaised (code : ErrCode) (hb : s.status.busy = false) : CommandAnswer s (raiseError code s)
  /-- A command that starts. -/
  | started (i : Instr) (hb : s.status.busy = false) : CommandAnswer s (startCommand i s)

theorem commandAnswer_acceptCommand (i : Instr) (regs : List DataReg) (error : Option ErrCode) (s : State) :
    CommandAnswer s (acceptCommand i regs error s) := by
  rcases acceptCommand_cases i regs error s with
    ⟨hb, h⟩ | ⟨hb, _, h⟩ | ⟨hb, _, code, _, h⟩ | ⟨hb, _, _, h⟩ <;> rw [h]
  · exact .overran hb
  · exact .operandUnwritten hb
  · exact .errorRaised code hb
  · exact .started i hb

theorem commandAnswer_rejectIllegal (s : State) : CommandAnswer s (rejectIllegal s) := by
  cases hb : s.status.busy with
  | true => exact rejectIllegal_of_busy hb ▸ .overran hb
  | false => exact rejectIllegal_of_not_busy hb ▸ .errorRaised .illegalCmd hb

/-- Every command answers a CMD write (30_encoding.md R92; 44_control.md R241, R242). -/
theorem exec_commandAnswer (i : Instr) {s : State} (ht : s.turn = .host) :
    ∃ t, exec i s = .next t ∧ CommandAnswer s t := by
  by_cases hi : i = .nop
  · subst hi
    rcases execNop_cases s with ⟨he, _⟩ | ⟨_, hb, h⟩ | ⟨_, hb, h⟩
    · exact nomatch ht.symm.trans he
    · exact ⟨_, h, .overran hb⟩
    · exact ⟨_, h, .errorRaised .none hb⟩
  · obtain ⟨error, h⟩ := exec_of_host hi ht
    exact ⟨_, h, commandAnswer_acceptCommand i _ error s⟩

/-- Every word at CMD is answered, legal or not (30_encoding.md R94, R96). -/
theorem hostWrite_commandAnswer (w : Word) {s : State} (ht : s.turn = .host) :
    ∃ t, hostWrite 0x000 8 w s = .next t ∧ CommandAnswer s t := by
  rw [hostWrite_cmd, submit]
  cases decode w with
  | ok i => exact exec_commandAnswer i ht
  | error e => exact ⟨_, rfl, commandAnswer_rejectIllegal s⟩

theorem CommandAnswer.eq_overrun {s t : State} (h : CommandAnswer s t) (hb : s.status.busy = true) : t = overrun s := by
  cases h with
  | overran _ => rfl
  | operandUnwritten hn => exact nomatch hb.symm.trans hn
  | errorRaised _ hn => exact nomatch hb.symm.trans hn
  | started _ hn => exact nomatch hb.symm.trans hn

theorem CommandAnswer.ovr_eq_false {s t : State} (h : CommandAnswer s t) (hb : s.status.busy = false) :
    t.status.ovr = false := by
  cases h with
  | overran hn => exact nomatch hb.symm.trans hn
  | operandUnwritten _ => rw [unwrittenOperand_status, statusCleared]
  | errorRaised _ _ => rfl
  | started _ _ => rfl

/-- An error code comes from `raise Error(code)` alone (60_exceptions.md R260, R269). -/
theorem CommandAnswer.eq_raiseError {s t : State} (h : CommandAnswer s t) (hb : s.status.busy = false)
    (he : t.status.err ≠ .none) : ∃ code, t = raiseError code s := by
  cases h with
  | overran hn => exact nomatch hb.symm.trans hn
  | operandUnwritten _ => exact absurd (by rw [unwrittenOperand_status, statusCleared]) he
  | errorRaised code _ => exact ⟨code, rfl⟩
  | started _ _ => exact absurd rfl he

/-- Settles O13: while BUSY = 1 the overrun is the one answer, and every other answer has cleared OVR. -/
theorem commandWhileBusyOnlySetsOverrun : Obligations.CommandWhileBusyOnlySetsOverrun := by
  refine ⟨fun s w ht hb => ?_, fun s w ⟨ht, hb⟩ => ?_⟩
  · obtain ⟨t, h, ha⟩ := hostWrite_commandAnswer w ht
    rw [h, ha.eq_overrun hb, overrun, statusOverrun]
  · obtain ⟨t, h, ha⟩ := hostWrite_commandAnswer w ht
    exact ⟨t, h, ha.ovr_eq_false hb⟩

/-- Settles O14: the answer is `raise Error(code)`, which writes STATUS alone. An unwritten operand leaves ERR NONE in this
model (log 1), so the answer's code alone decides. -/
theorem errorsLeaveEverythingElse : Obligations.ErrorsLeaveEverythingElse := by
  rintro s t w ⟨ht, hb⟩ _ h he
  obtain ⟨t', h', ha⟩ := hostWrite_commandAnswer w ht
  cases h.symm.trans h'
  obtain ⟨code, rfl⟩ := ha.eq_raiseError hb he
  exact ⟨rfl, hb, rfl⟩

end Sys2Proof.Machine
end

section
/-! Host accesses while BUSY = 1, and the reset (70_reset_and_hazards.md R290, R293, R294). -/

namespace Sys2Proof.Machine

/-- A little-endian value of `n` bytes fits in them (20_memory.md R63). -/
theorem toNat_wordOfBytes_bytesOf_lt (v : Word) (n : Nat) : (wordOfBytes (bytesOf v n)).toNat < 2 ^ (8 * n) := by
  rw [wordOfBytes_bytesOf_eq_ofNat, BitVec.toNat_ofNat]
  exact (Nat.mod_le _ _).trans_lt (Nat.mod_lt _ (Nat.two_pow_pos _))

theorem replyResult_of_busy {s : State} (hb : s.status.busy = true) (r : DataReg) : replyResult r s = replyFree 8 s :=
  if_pos hb

/-- A host read of a result register while a command runs (70_reset_and_hazards.md R294, log 7). -/
theorem hostRead_result_of_busy {r : RegName} {d : DataReg} {s : State} (hb : s.status.busy = true)
    (h : readReg r s = replyResult d s) : hostRead (regOffset r) 8 s = .next (replyFree 8 s) := by
  rw [hostRead_regOffset, h, replyResult_of_busy hb]

/-- A read that FRAME takes, while a command runs (70_reset_and_hazards.md R294, log 7). -/
theorem hostRead_frame_of_busy {s : State} {a n : Nat} (hb : s.status.busy = true)
    (h : inWindow Config.FRAME_BASE Config.FRAME_LEN a n = true) : hostRead a n s = .next (replyFree n s) := by
  rw [hostRead, targetOf_frame h]
  exact if_pos hb

/-- Settles O50: each of these reads answers by `replyFree`, and the free value is cut to the read's width. -/
theorem resultReadsWhileBusyAreFree : Obligations.ResultReadsWhileBusyAreFree := by
  intro s hb
  refine ⟨?_, fun a n hn hm hlo hhi =>
    ⟨_, toNat_wordOfBytes_bytesOf_lt _ n, hostRead_frame_of_busy hb (inWindow_frame_iff.2 ⟨hn, hm, hlo, hhi⟩)⟩⟩
  simp only [List.forall_mem_cons]
  exact ⟨⟨_, hostRead_result_of_busy (r := .res0) hb rfl⟩, ⟨_, hostRead_result_of_busy (r := .res1) hb rfl⟩,
    ⟨_, hostRead_result_of_busy (r := .res2) hb rfl⟩, List.forall_mem_nil _⟩

theorem writeInput_of_busy {s : State} (hb : s.status.busy = true) (t : State) : writeInput s t = .fault .hostHazard :=
  if_pos hb

/-- A host write of an input register while a command runs (70_reset_and_hazards.md R293). -/
theorem hostWrite_input_of_busy {r : RegName} {v : Word} {s t : State} (hb : s.status.busy = true) (hr : r ≠ .cmd)
    (h : writeReg r v s = writeInput s t) : hostWrite (regOffset r) 8 v s = .fault .hostHazard := by
  rw [hostWrite_regOffset hr, h, writeInput_of_busy hb]

/-- A write that SRC takes, while a command runs (70_reset_and_hazards.md R293). -/
theorem hostWrite_src_of_busy {s : State} {a n : Nat} (hb : s.status.busy = true)
    (h : inWindow Config.SRC_BASE Config.SRC_LEN a n = true) (v : Word) : hostWrite a n v s = .fault .hostHazard := by
  rw [hostWrite, targetOf_src h]
  exact writeInput_of_busy hb _

/-- Settles O47: the nine registers and SRC are all written by `writeInput`. -/
theorem inputWritesWhileBusyAreHazards : Obligations.InputWritesWhileBusyAreHazards := by
  intro s v hb
  refine ⟨?_, fun a n hn hm hlo hhi => hostWrite_src_of_busy hb (inWindow_src_iff.2 ⟨hn, hm, hlo, hhi⟩) v⟩
  simp only [List.forall_mem_cons]
  exact ⟨hostWrite_input_of_busy (r := .srcW) hb nofun rfl, hostWrite_input_of_busy (r := .srcH) hb nofun rfl,
    hostWrite_input_of_busy (r := .timestamp) hb nofun rfl, hostWrite_input_of_busy (r := .opaR) hb nofun rfl,
    hostWrite_input_of_busy (r := .opaG) hb nofun rfl, hostWrite_input_of_busy (r := .opaB) hb nofun rfl,
    hostWrite_input_of_busy (r := .opbR) hb nofun rfl, hostWrite_input_of_busy (r := .opbG) hb nofun rfl,
    hostWrite_input_of_busy (r := .opbB) hb nofun rfl, List.forall_mem_nil _⟩

/-- Settles O54: the block's fields are those of `State.reset`, so the reset table gives them, and the passing of the turn
touches none of them. -/
theorem resetAbandonsTheRunningCommand : Obligations.ResetAbandonsTheRunningCommand := by
  intro s rest ht hq
  obtain ⟨hstatus, _, hw, hh, hts, hregs, h0, h1, h2, hpal, hmem, hpix, hphase, hactive, hlatch, _⟩ := resetTable
  refine ⟨nextTurn (resetBlock { s with host := rest }), by rw [step_of_host ht hq, hostAct, passTurn], ?_⟩
  obtain ⟨a, sch, k, d, hn⟩ := nextTurn_frame (resetBlock { s with host := rest })
  rw [hn]
  exact ⟨hphase, hactive, hstatus, hmem, hpix, hregs, h0, h1, h2, hpal, rfl, hw, hh, hts, hlatch, rfl, rfl⟩

end Sys2Proof.Machine
end
